-- ==== Sys2Proof/Word.lean ====
section
/-! DEFINITION. The word types of the hardware (spec/00_scope.md R6, R8: all values are unsigned). -/

namespace Sys2Proof

/-- One byte: a general register, a timer, a memory cell, an immediate `NN` (R6). -/
abbrev Byte := BitVec 8

/-- Sixteen bits: `pc`, `I`, a stack entry, an instruction word (R6). -/
abbrev Word := BitVec 16

/-- The 4-bit index of a general register, field `X` or `Y` of a word (R21, R71). -/
abbrev Reg := BitVec 4

/-- A 4-bit immediate, field `N` of a word (R71). -/
abbrev Nibble := BitVec 4

/-- A 12-bit address, field `NNN` of a word (R71). -/
abbrev Addr := BitVec 12

/-- The sixteen key inputs, bit k being `key[k]` (R7, R31). -/
abbrev Keys := BitVec 16

end Sys2Proof
end

