-- ==== Sys2Proof/Config.lean ====
section
/-! DEFINITION. What is fixed for the machine (spec/00_scope.md R6), the kind of the open parameter
`SHIFT_SRC` (R7), and the one free value. The open parameters themselves are fields of State, so that
every statement about all states is a statement about all their values. -/

namespace Sys2Proof

/-- The values of the open parameter `SHIFT_SRC` (R7): which register the two shifts read. -/
inductive ShiftSrc where
  | X
  | Y
  deriving DecidableEq, Repr

/-- Reset value of `pc` (R6, R35). -/
abbrev Config.entry : Word := 0x0200

/-- Largest program image in bytes (R6, R194). -/
abbrev Config.maxImage : Nat := 3583

/-- FREE VALUE (log entry 2; R133, D15): the byte the n-th `RND` draws when the host has put no byte
into `State.rndIn`. It has no body, so no proof can know it. -/
opaque Config.freeRnd : Nat → Byte

end Sys2Proof
end

