-- ==== Sys2Proof/Syntax.lean ====
section
/-! DEFINITION. The instruction set: one constructor per row of spec/opcode_table.json, in its order. -/

namespace Sys2Proof

/-- The 34 instructions (spec/00_scope.md R2; operand fields of spec/30_encoding.md R72). The low nibble
of `SER` and `SNER` words, which the decoder does not look at (R80), is no operand. -/
inductive Instr where
  | cls
  | ret
  | jp (nnn : Addr)
  | call (nnn : Addr)
  | sei (x : Reg) (nn : Byte)
  | snei (x : Reg) (nn : Byte)
  | ser (x y : Reg)
  | ldb (x : Reg) (nn : Byte)
  | addb (x : Reg) (nn : Byte)
  | mov (x y : Reg)
  | or (x y : Reg)
  | and (x y : Reg)
  | xor (x y : Reg)
  | add (x y : Reg)
  | sub (x y : Reg)
  | shr (x y : Reg)
  | subn (x y : Reg)
  | shl (x y : Reg)
  | sner (x y : Reg)
  | ldi (nnn : Addr)
  | jpo (nnn : Addr)
  | rnd (x : Reg) (nn : Byte)
  | drw (x y : Reg) (n : Nibble)
  | skp (x : Reg)
  | sknp (x : Reg)
  | gdt (x : Reg)
  | wkey (x : Reg)
  | sdt (x : Reg)
  | sst (x : Reg)
  | addi (x : Reg)
  | ldf (x : Reg)
  | bcd (x : Reg)
  | dump (x : Reg)
  | load (x : Reg)
  deriving DecidableEq, Repr

end Sys2Proof
end

