-- ==== Sys2Proof/WellFormed.lean ====
section
/-! DEFINITION. Which operand numbers an instruction word can hold (spec/30_encoding.md R71, R72, R83).
The fields of `Instr` carry these bounds in their types, so every `Instr` is well formed; the check is
about operands written as plain numbers, as an assembler reads them. -/

namespace Sys2Proof

/-- The operands of an instruction as plain numbers, by format (R72). -/
inductive RawOperands where
  | fix
  | addr (nnn : Nat)
  | regByte (x nn : Nat)
  | regReg (x y : Nat)
  | regRegNibble (x y n : Nat)
  | reg (x : Nat)
  deriving DecidableEq, Repr

/-- Each operand fits its field: registers and `N` in 4 bits, `NN` in 8, `NNN` in 12 (R71). -/
def RawOperands.wellFormed : RawOperands → Bool
  | .fix => true
  | .addr nnn => nnn < 4096
  | .regByte x nn => x < 16 && nn < 256
  | .regReg x y => x < 16 && y < 16
  | .regRegNibble x y n => x < 16 && y < 16 && n < 16
  | .reg x => x < 16

/-- The operands of an instruction as plain numbers. -/
def Instr.rawOperands : Instr → RawOperands
  | .cls => .fix
  | .ret => .fix
  | .jp nnn => .addr nnn.toNat
  | .call nnn => .addr nnn.toNat
  | .sei x nn => .regByte x.toNat nn.toNat
  | .snei x nn => .regByte x.toNat nn.toNat
  | .ser x y => .regReg x.toNat y.toNat
  | .ldb x nn => .regByte x.toNat nn.toNat
  | .addb x nn => .regByte x.toNat nn.toNat
  | .mov x y => .regReg x.toNat y.toNat
  | .or x y => .regReg x.toNat y.toNat
  | .and x y => .regReg x.toNat y.toNat
  | .xor x y => .regReg x.toNat y.toNat
  | .add x y => .regReg x.toNat y.toNat
  | .sub x y => .regReg x.toNat y.toNat
  | .shr x y => .regReg x.toNat y.toNat
  | .subn x y => .regReg x.toNat y.toNat
  | .shl x y => .regReg x.toNat y.toNat
  | .sner x y => .regReg x.toNat y.toNat
  | .ldi nnn => .addr nnn.toNat
  | .jpo nnn => .addr nnn.toNat
  | .rnd x nn => .regByte x.toNat nn.toNat
  | .drw x y n => .regRegNibble x.toNat y.toNat n.toNat
  | .skp x => .reg x.toNat
  | .sknp x => .reg x.toNat
  | .gdt x => .reg x.toNat
  | .wkey x => .reg x.toNat
  | .sdt x => .reg x.toNat
  | .sst x => .reg x.toNat
  | .addi x => .reg x.toNat
  | .ldf x => .reg x.toNat
  | .bcd x => .reg x.toNat
  | .dump x => .reg x.toNat
  | .load x => .reg x.toNat

/-- An instruction is well formed when its operands fit their fields. -/
def Instr.wellFormed (i : Instr) : Bool := i.rawOperands.wellFormed

end Sys2Proof
end

