-- ==== Sys2Proof/Decode.lean ====
section
/-! DEFINITION. The dispatcher (spec/30_encoding.md R70 to R81): a total function from the 65536 words to
the 34 instructions or a named class of unrecognised words, and the encoder after it. -/

namespace Sys2Proof

/-! ## Fields of a word (R71) -/

/-- `C`, the class, W[15:12]. -/
def fieldC (w : Word) : Nibble := w.extractLsb' 12 4

/-- `X`, W[11:8]. -/
def fieldX (w : Word) : Reg := w.extractLsb' 8 4

/-- `Y`, W[7:4]. -/
def fieldY (w : Word) : Reg := w.extractLsb' 4 4

/-- `N`, W[3:0]. -/
def fieldN (w : Word) : Nibble := w.extractLsb' 0 4

/-- `NN`, W[7:0]. -/
def fieldNN (w : Word) : Byte := w.extractLsb' 0 8

/-- `NNN`, W[11:0]. -/
def fieldNNN (w : Word) : Addr := w.extractLsb' 0 12

/-! ## Decoding -/

/-- The four kinds of unrecognised words (R79), by the class whose secondary code is not recognised. -/
inductive DecodeError where
  | unknownClass0
  | unknownClass8
  | unknownClassE
  | unknownClassF
  deriving DecidableEq, Repr

/-- Class 0x0: exactly 0x00E0 and 0x00EE are recognised (R75). -/
def decodeClass0 (w : Word) : Except DecodeError Instr :=
  if w = 0x00E0 then .ok .cls
  else if w = 0x00EE then .ok .ret
  else .error .unknownClass0

/-- Class 0x8: secondary dispatch on the low nibble (R76). -/
def decodeClass8 (x y : Reg) (n : Nibble) : Except DecodeError Instr :=
  if n = 0x0 then .ok (.mov x y)
  else if n = 0x1 then .ok (.or x y)
  else if n = 0x2 then .ok (.and x y)
  else if n = 0x3 then .ok (.xor x y)
  else if n = 0x4 then .ok (.add x y)
  else if n = 0x5 then .ok (.sub x y)
  else if n = 0x6 then .ok (.shr x y)
  else if n = 0x7 then .ok (.subn x y)
  else if n = 0xE then .ok (.shl x y)
  else .error .unknownClass8

/-- Class 0xE: secondary dispatch on the low byte (R77). -/
def decodeClassE (x : Reg) (nn : Byte) : Except DecodeError Instr :=
  if nn = 0x9E then .ok (.skp x)
  else if nn = 0xA1 then .ok (.sknp x)
  else .error .unknownClassE

/-- Class 0xF: secondary dispatch on the low byte (R78). -/
def decodeClassF (x : Reg) (nn : Byte) : Except DecodeError Instr :=
  if nn = 0x07 then .ok (.gdt x)
  else if nn = 0x0A then .ok (.wkey x)
  else if nn = 0x15 then .ok (.sdt x)
  else if nn = 0x18 then .ok (.sst x)
  else if nn = 0x1E then .ok (.addi x)
  else if nn = 0x29 then .ok (.ldf x)
  else if nn = 0x33 then .ok (.bcd x)
  else if nn = 0x55 then .ok (.dump x)
  else if nn = 0x65 then .ok (.load x)
  else .error .unknownClassF

/-- `Decode(W)` (R92): primary dispatch on the class (R74). Classes 0x5 and 0x9 do not look at the low
nibble (R80). -/
def decode (w : Word) : Except DecodeError Instr :=
  let c := fieldC w
  if c = 0x0 then decodeClass0 w
  else if c = 0x1 then .ok (.jp (fieldNNN w))
  else if c = 0x2 then .ok (.call (fieldNNN w))
  else if c = 0x3 then .ok (.sei (fieldX w) (fieldNN w))
  else if c = 0x4 then .ok (.snei (fieldX w) (fieldNN w))
  else if c = 0x5 then .ok (.ser (fieldX w) (fieldY w))
  else if c = 0x6 then .ok (.ldb (fieldX w) (fieldNN w))
  else if c = 0x7 then .ok (.addb (fieldX w) (fieldNN w))
  else if c = 0x8 then decodeClass8 (fieldX w) (fieldY w) (fieldN w)
  else if c = 0x9 then .ok (.sner (fieldX w) (fieldY w))
  else if c = 0xA then .ok (.ldi (fieldNNN w))
  else if c = 0xB then .ok (.jpo (fieldNNN w))
  else if c = 0xC then .ok (.rnd (fieldX w) (fieldNN w))
  else if c = 0xD then .ok (.drw (fieldX w) (fieldY w) (fieldN w))
  else if c = 0xE then decodeClassE (fieldX w) (fieldNN w)
  else decodeClassF (fieldX w) (fieldNN w)

/-- The word whose first byte in memory is `hi` and whose second is `lo` (R52, R54: big-endian). -/
def composeWord (hi lo : Byte) : Word := hi ++ lo

/-- The byte of a word at the lower address (R52). -/
def highByte (w : Word) : Byte := w.extractLsb' 8 8

/-- The byte of a word at the higher address (R52). -/
def lowByte (w : Word) : Byte := w.extractLsb' 0 8

/-- Decoding two consecutive bytes of memory. -/
def decodeBytes (hi lo : Byte) : Except DecodeError Instr := decode (composeWord hi lo)

/-! ## Encoding -/

/-- Format `A`: class and `NNN` (R72). -/
def formatA (c : Nibble) (nnn : Addr) : Word := c ++ nnn

/-- Formats `XB` and `XS`: class, `X` and a byte, immediate or secondary code (R72). -/
def formatXB (c : Nibble) (x : Reg) (nn : Byte) : Word := c ++ x ++ nn

/-- Formats `XY` and `XYN`: class, `X`, `Y` and the low nibble (R72). -/
def formatXY (c : Nibble) (x y : Reg) (n : Nibble) : Word := c ++ x ++ y ++ n

/-- The word of an instruction, written from R75 to R78 and R83 (canonical low nibble 0 for `SER` and
`SNER`, R80). -/
def encode : Instr → Word
  | .cls => 0x00E0
  | .ret => 0x00EE
  | .jp nnn => formatA 0x1 nnn
  | .call nnn => formatA 0x2 nnn
  | .sei x nn => formatXB 0x3 x nn
  | .snei x nn => formatXB 0x4 x nn
  | .ser x y => formatXY 0x5 x y 0x0
  | .ldb x nn => formatXB 0x6 x nn
  | .addb x nn => formatXB 0x7 x nn
  | .mov x y => formatXY 0x8 x y 0x0
  | .or x y => formatXY 0x8 x y 0x1
  | .and x y => formatXY 0x8 x y 0x2
  | .xor x y => formatXY 0x8 x y 0x3
  | .add x y => formatXY 0x8 x y 0x4
  | .sub x y => formatXY 0x8 x y 0x5
  | .shr x y => formatXY 0x8 x y 0x6
  | .subn x y => formatXY 0x8 x y 0x7
  | .shl x y => formatXY 0x8 x y 0xE
  | .sner x y => formatXY 0x9 x y 0x0
  | .ldi nnn => formatA 0xA nnn
  | .jpo nnn => formatA 0xB nnn
  | .rnd x nn => formatXB 0xC x nn
  | .drw x y n => formatXY 0xD x y n
  | .skp x => formatXB 0xE x 0x9E
  | .sknp x => formatXB 0xE x 0xA1
  | .gdt x => formatXB 0xF x 0x07
  | .wkey x => formatXB 0xF x 0x0A
  | .sdt x => formatXB 0xF x 0x15
  | .sst x => formatXB 0xF x 0x18
  | .addi x => formatXB 0xF x 0x1E
  | .ldf x => formatXB 0xF x 0x29
  | .bcd x => formatXB 0xF x 0x33
  | .dump x => formatXB 0xF x 0x55
  | .load x => formatXB 0xF x 0x65

/-- The word an opcode-table row's bits stand for: `nbits` bits of `w`, zero above. -/
def tableWord (nbits w : Nat) : Word := BitVec.ofNat 16 (w % 2 ^ nbits)

/-- The instruction the decoder reads from an instruction whose bits are `w`, numbered as
spec/opcode_table.json numbers them: laid out in memory order and decoded from its two bytes. Every row
has 16 bits (R70); a longer one would be no instruction of this hardware. -/
def decodeTableWord (nbits w : Nat) : Option Instr :=
  if nbits ≤ 16 then
    match decodeBytes (highByte (tableWord nbits w)) (lowByte (tableWord nbits w)) with
    | .ok i => some i
    | .error _ => none
  else none

end Sys2Proof
end

