-- ==== Sys2Proof/Machine/State.lean ====
section
/-! DEFINITION. The machine's state (spec/10_state.md), its outputs, its inputs, and the state after
reset (R35). -/

namespace Sys2Proof.Machine

/-- Memory as the cells that differ from the reset contents: addresses strictly rising, each below 4096,
no cell equal to what an unlisted address reads as (`Memory.wf`). -/
abbrev Memory := List Host.Cell

/-- The framebuffer: 32 rows, row 0 at the top, of 64 pixels, column 0 at the left (R29). -/
abbrev Framebuffer := Vector (Vector Bool 64) 32

/-- The two fatal conditions, the values of `fault_cause` (spec/60_exceptions.md R170, R173). -/
inductive StackCondition where
  | stackOverflow
  | stackUnderflow
  deriving DecidableEq, Repr

/-- The result of a cycle (spec/40_cycle.md R95). -/
inductive CycleResult where
  /-- An instruction or an unrecognised word completed and the timers ticked. -/
  | advanced
  /-- Wait-for-key with no key held: no state changed. -/
  | waiting
  /-- This cycle raised a stack condition. -/
  | faulted
  /-- The fault latch was already set: nothing changed. -/
  | halted
  deriving DecidableEq, Repr

/-- The event `unknown(W, at)` (spec/40_cycle.md R96): an unrecognised word and the `pc` it was fetched
at. -/
structure UnknownReport where
  word : Word
  addr : Word
  deriving DecidableEq, Repr

/-- Faults that stop the model's step. There are none, so nothing raises one: the two fatal conditions of
the hardware have an effect the spec states (the fault latch), so they are next states. This type stays
empty, which is safe. -/
inductive Fault : Type where
  deriving DecidableEq, Repr

/-- Refusals of the model's step. -/
inductive Refusal where
  /-- Raised by a refused arm of `exec` for an instruction with no meaning yet; no arm is refused. Safe:
  the model stops where the hardware goes on. -/
  | notModelled (mnemonic : String)
  deriving DecidableEq, Repr

/-- Everything the spec gives the machine, its inputs and its outputs. -/
structure State where
  /-- `mem` (R26, R50). -/
  mem : Memory
  /-- `x[0]` to `x[15]` (R21). -/
  x : Vector Byte 16
  /-- The index register (R23). -/
  I : Word
  /-- The program counter (R24): during a cycle, the address of the executing instruction (R11). -/
  pc : Word
  /-- `stack[0]` to `stack[15]` (R25). -/
  stack : Vector Word 16
  /-- The stack pointer, 0 (empty) to 16 (full) (R25). -/
  SP : Fin 17
  /-- The delay timer (R28). -/
  DT : Byte
  /-- The sound timer (R28). -/
  ST : Byte
  /-- The framebuffer (R29). -/
  FB : Framebuffer
  /-- The redraw flag (R30). -/
  redraw : Bool
  /-- The fault latch (R36, R173). -/
  fault : Bool
  /-- `fault_cause` (R173); `none` is its reset value. -/
  faultCause : Option StackCondition
  /-- `fault_pc` (R173). -/
  faultPc : Word
  /-- The key state sampled for the current cycle (R31): an input the core only reads. -/
  key : Keys
  /-- Model's own: the key states the host presents to the coming cycles, the next cycle's first; a cycle
  that finds the list empty sees the keys of the cycle before (log entry 1). -/
  keyIn : List Keys
  /-- Model's own: the bytes the host has ready for `rnd()`, the next draw first (log entry 2). -/
  rndIn : List Byte
  /-- Model's own: how many free bytes have been drawn with `rndIn` empty (log entry 2). -/
  rndDraws : Nat
  /-- The open parameter `FONT` (R7, R27): no step writes it (log entry 4). -/
  font : Vector Byte 80
  /-- The open parameter `SHIFT_SRC` (R7, R130): no step writes it (log entry 3). -/
  shiftSrc : ShiftSrc
  /-- Output: the result of the last cycle (R95); `none` before the first (log entry 5). -/
  result : Option CycleResult
  /-- Output: the last cycle emitted `beep` (R96, R181). -/
  beep : Bool
  /-- Output: the last cycle's `unknown` event, if it emitted one (R96, R174). -/
  unknown : Option UnknownReport
  deriving DecidableEq, Repr

/-- The machine right after reset (R35, spec/70_reset_and_hazards.md R190), with the parameters at their
defaults and no input presented by the host. -/
def State.reset : State where
  mem := []
  x := Vector.replicate 16 0
  I := 0
  pc := Config.entry
  stack := Vector.replicate 16 0
  SP := 0
  DT := 0
  ST := 0
  FB := Vector.replicate 32 (Vector.replicate 64 false)
  redraw := false
  fault := false
  faultCause := none
  faultPc := 0
  key := 0
  keyIn := []
  rndIn := []
  rndDraws := 0
  font := defaultFont
  shiftSrc := defaultShiftSrc
  result := none
  beep := false
  unknown := none

end Sys2Proof.Machine
end

