-- ==== Sys2Proof/Machine/Ops.lean ====
section
/-! DEFINITION. The operations on memory, registers, stack, framebuffer, timers and the cycle that every
meaning and the step are written with. -/

namespace Sys2Proof.Machine

/-! ## Memory (spec/20_memory.md) -/

/-- What an address with no listed cell reads as: the reset contents, `FONT` at 0x050 to
0x09F and 0 elsewhere (R35, R57). -/
def Memory.initial (font : Vector Byte 80) (a : Nat) : Byte :=
  if h : 0x50 ≤ a ∧ a < 0xA0 then font[a - 0x50]'(by omega) else 0

/-- The byte listed at an address, if one is. -/
def Memory.lookup : Memory → Nat → Option Byte
  | [], _ => none
  | (b, v) :: m, a => if a = b then some v else Memory.lookup m a

/-- The byte at an address. -/
def Memory.read (font : Vector Byte 80) (m : Memory) (a : Nat) : Byte :=
  (Memory.lookup m a).getD (Memory.initial font a)

/-- List a byte at an address, keeping the addresses rising. -/
def Memory.put (a : Nat) (v : Byte) : Memory → Memory
  | [] => [(a, v)]
  | (b, w) :: m =>
    if a < b then (a, v) :: (b, w) :: m
    else if a = b then (a, v) :: m
    else (b, w) :: Memory.put a v m

/-- List nothing at an address. -/
def Memory.erase (a : Nat) : Memory → Memory
  | [] => []
  | (b, w) :: m => if a = b then Memory.erase a m else (b, w) :: Memory.erase a m

/-- Write a byte, in canonical form: a byte equal to the reset contents is not listed. -/
def Memory.write (font : Vector Byte 80) (a : Nat) (v : Byte) (m : Memory) : Memory :=
  if v = Memory.initial font a then Memory.erase a m else Memory.put a v m

/-- The canonical form: addresses strictly rising and in the space, no cell that says what an unlisted
address says. -/
abbrev Memory.wf (font : Vector Byte 80) (m : Memory) : Prop :=
  m.Pairwise (fun p q => p.1 < q.1) ∧
    ∀ p ∈ m, p.1 < 4096 ∧ p.2 ≠ Memory.initial font p.1

/-- The address decoder takes the low 12 bits of any address (R51). -/
def memIndex (a : Word) : Nat := a.toNat % 4096

/-- `MemRead(addr, 1)` (R50). -/
def State.loadByte (s : State) (a : Word) : Byte := Memory.read s.font s.mem (memIndex a)

/-- `MemWrite(addr, 1, v)` (R53). -/
def State.storeByte (s : State) (a : Word) (v : Byte) : State :=
  { s with mem := Memory.write s.font (memIndex a) v s.mem }

/-- `MemRead(pc, 2)` (R52, R91): each of the two addresses reduced on its own. -/
def State.fetch (s : State) : Word := composeWord (s.loadByte s.pc) (s.loadByte (s.pc + 1))

/-- The effective address of the k-th byte through `I` (spec/43_index_memory.md R144). -/
def State.indexed (s : State) (k : Nat) : Word := s.I + BitVec.ofNat 16 k

/-! ## Registers -/

/-- Read `x[r]` (R21). -/
def State.reg (s : State) (r : Reg) : Byte := s.x[r.toNat]'r.isLt

/-- Write `x[r]` (R21). -/
def State.setReg (s : State) (r : Reg) (v : Byte) : State := { s with x := s.x.set r.toNat v r.isLt }

/-- Write `I` (R23). -/
def State.setI (s : State) (v : Word) : State := { s with I := v }

/-- `DT <- v` (R28). -/
def State.setDT (s : State) (v : Byte) : State := { s with DT := v }

/-- `ST <- v` (R28). -/
def State.setST (s : State) (v : Byte) : State := { s with ST := v }

/-! ## Program counter (spec/41_flow.md R100) -/

/-- `pc <- target`. -/
def State.jump (s : State) (target : Word) : State := { s with pc := target }

/-- `pc <- pc + 2`, modulo 65536 (R11, R24). -/
def State.advance (s : State) : State := { s with pc := s.pc + 2 }

/-- `pc <- pc + 4` if the condition holds, else `pc <- pc + 2` (R100). -/
def State.skipIf (s : State) (cond : Bool) : State :=
  { s with pc := if cond then s.pc + 4 else s.pc + 2 }

/-! ## Call stack (R25) -/

/-- `stack[SP] <- v; SP <- SP + 1`, or nothing when the stack is full. -/
def State.push (s : State) (v : Word) : Option State :=
  if h : s.SP.val < 16 then
    some { s with stack := s.stack.set s.SP.val v h, SP := ⟨s.SP.val + 1, by omega⟩ }
  else none

/-- `SP <- SP - 1`, with the entry then at `stack[SP]`, or nothing when the stack is empty. The entry is
not cleared (R25, R101). -/
def State.pop (s : State) : Option (Word × State) :=
  if 0 < s.SP.val then
    some (s.stack[s.SP.val - 1]'(by omega), { s with SP := ⟨s.SP.val - 1, by omega⟩ })
  else none

/-! ## Framebuffer (R29, spec/44_display.md) -/

/-- `FB[r][c]`. -/
def Framebuffer.pixel (fb : Framebuffer) (r : Fin 32) (c : Fin 64) : Bool := fb[r][c]

/-- `FB[r][c] <- FB[r][c] ^ 1`. -/
def Framebuffer.toggle (fb : Framebuffer) (r : Fin 32) (c : Fin 64) : Framebuffer :=
  fb.set r.val (fb[r].set c.val (!fb[r][c]) c.isLt) r.isLt

/-- All 2048 pixels 0 (R150). -/
def Framebuffer.clear : Framebuffer := Vector.replicate 32 (Vector.replicate 64 false)

/-- Write the framebuffer and set the redraw flag (R30). -/
def State.display (s : State) (fb : Framebuffer) : State := { s with FB := fb, redraw := true }

/-! ## The random input (R133, R187) -/

/-- `rnd()`: the next byte of the host's input and the state that has consumed it. With no byte ready the
draw is the free value `Config.freeRnd` (log entry 2). -/
def State.drawRnd (s : State) : Byte × State :=
  match s.rndIn with
  | r :: rest => (r, { s with rndIn := rest })
  | [] => (Config.freeRnd s.rndDraws, { s with rndDraws := s.rndDraws + 1 })

/-! ## Ends of an instruction -/

/-- The instruction completed: the cycle's result is `Advanced` (R95). -/
def State.finish (s : State) : Host.Outcome State Fault Refusal :=
  .next { s with result := some .advanced }

/-- Wait-for-key with no key held: the cycle's result is `Waiting`, nothing else changes (R95, R162). -/
def State.wait (s : State) : Host.Outcome State Fault Refusal :=
  .next { s with result := some .waiting }

/-- `raise StackOverflow` or `raise StackUnderflow` (spec/60_exceptions.md R171, R172): the latch and its
record are written and nothing else; the result is `Faulted`. The hardware has no other exception entry
and no return from one (R177). -/
def State.raise (s : State) (c : StackCondition) : Host.Outcome State Fault Refusal :=
  .next { s with fault := true, faultCause := some c, faultPc := s.pc, result := some .faulted }

/-! ## The parts of a cycle (spec/40_cycle.md R90) -/

/-- The start of a cycle: the inputs are sampled (R31, log entry 1) and the outputs of the cycle before
are gone (R96). -/
def State.beginCycle (s : State) : State :=
  { s with key := s.keyIn.headD s.key, keyIn := s.keyIn.tail, result := none, beep := false,
           unknown := none }

/-- A cycle with the fault latch set: `Halted`, nothing read, nothing written (R90, R173). -/
def State.halt (s : State) : State := { s with result := some .halted }

/-- An unrecognised word: `emit unknown(W, pc); pc <- pc + 2` (R79). -/
def State.reportUnknown (s : State) (w : Word) : State :=
  { s with unknown := some ⟨w, s.pc⟩, pc := s.pc + 2, result := some .advanced }

/-- A timer loses one, floored at 0 (R28). -/
def countDown (v : Byte) : Byte := if v = 0 then 0 else v - 1

/-- `Tick()` (spec/60_exceptions.md R180). -/
def State.tick (s : State) : State :=
  { s with DT := countDown s.DT, ST := countDown s.ST, beep := s.beep || s.ST == 1 }

/-- The end of a cycle: the tick runs when the result is `Advanced` and in no other case (R94, R180). -/
def State.endCycle (s : State) : State :=
  if s.result = some .advanced then s.tick else s

end Sys2Proof.Machine
end

