-- ==== Sys2Proof/Machine/Operands.lean ====
section
/-! DEFINITION. The operand forms: immediates, register operands and the values the instructions compute
from them (spec/30_encoding.md R73 and the rules named below). -/

namespace Sys2Proof.Machine

/-- `zext_16(NNN)` (R73). -/
def addrWord (nnn : Addr) : Word := nnn.setWidth 16

/-- `zext_16` of a byte (R73). -/
def byteWord (v : Byte) : Word := v.setWidth 16

/-- The register a shift reads, chosen by `SHIFT_SRC` (spec/42_alu.md R130, R132). -/
def State.shiftReg (s : State) (x y : Reg) : Reg :=
  match s.shiftSrc with
  | .X => x
  | .Y => y

/-- The key that `x[X]` selects: its low four bits (spec/45_keys_timers.md R160). -/
def keySelect (v : Byte) : Nat := v.toNat % 16

/-- `key[k]` for the key that a register value selects (R160, R161). -/
def State.keyHeld (s : State) (v : Byte) : Bool := s.key.getLsbD (keySelect v)

/-- The largest held key below a bound. -/
def highestBelow (keys : Keys) : Nat → Option Nat
  | 0 => none
  | k + 1 => if keys.getLsbD k then some k else highestBelow keys k

/-- The highest-indexed held key, if one is held (R162). -/
def highestKey (keys : Keys) : Option Nat := highestBelow keys 16

/-- The address of a glyph: `0x50 + 5 * v`, not masked (spec/43_index_memory.md R142). -/
def glyphAddress (v : Byte) : Word := BitVec.ofNat 16 (0x50 + 5 * v.toNat)

/-- The hundreds digit (R143). -/
def hundreds (v : Byte) : Byte := BitVec.ofNat 8 (v.toNat / 100)

/-- The tens digit (R143). -/
def tens (v : Byte) : Byte := BitVec.ofNat 8 (v.toNat / 10 % 10)

/-- The ones digit (R143). -/
def ones (v : Byte) : Byte := BitVec.ofNat 8 (v.toNat % 10)

/-- The start column of a draw (spec/44_display.md R151). -/
def startColumn (v : Byte) : Nat := v.toNat % 64

/-- The start row of a draw (R151). -/
def startRow (v : Byte) : Nat := v.toNat % 32

/-- A column of the framebuffer, clamped to the last (R151). -/
def clampColumn (c : Nat) : Fin 64 := ⟨min c 63, by omega⟩

/-- A row of the framebuffer, clamped to the last (R151). -/
def clampRow (r : Nat) : Fin 32 := ⟨min r 31, by omega⟩

/-- Bit `7 - col` of a sprite byte: bit 7 is the leftmost pixel (R151). -/
def spriteBit (b : Byte) (col : Nat) : Bool := b.getLsbD (7 - col)

end Sys2Proof.Machine
end

