-- ==== Sys2Proof/Machine/Flags.lean ====
section
/-! DEFINITION. The values written to the flag register `x[0xF]` (spec/10_state.md R22). -/

namespace Sys2Proof.Machine

/-- The flag register (R22). -/
abbrev flagReg : Reg := 0xF

/-- A flag as a register value. -/
def flagByte (b : Bool) : Byte := if b then 1 else 0

/-- `ADD`: 1 when the sum exceeds 255 (spec/42_alu.md R126). -/
def carryFlag (a b : Byte) : Byte := flagByte (255 < a.toNat + b.toNat)

/-- `SUB`, `SUBN`: 0 when the subtrahend exceeds the minuend, else 1 (R128, R131). -/
def noBorrowFlag (minuend subtrahend : Byte) : Byte := flagByte (subtrahend.toNat ≤ minuend.toNat)

/-- `SHR`: the bit shifted out at the bottom (R130). -/
def lowBitFlag (v : Byte) : Byte := flagByte (v.getLsbD 0)

/-- `SHL`: the bit shifted out at the top (R132). -/
def highBitFlag (v : Byte) : Byte := flagByte (v.getLsbD 7)

/-- `ADDI`: 1 when the unwrapped sum exceeds 0xFFF (spec/43_index_memory.md R141). -/
def indexOverflowFlag (i : Word) (v : Byte) : Byte := flagByte (0xFFF < i.toNat + v.toNat)

end Sys2Proof.Machine
end

