-- ==== Sys2Proof/Machine/Alu.lean ====
section
/-! DEFINITION. Register load, arithmetic and logic: LDB, ADDB, MOV, OR, AND, XOR, ADD, SUB, SHR, SUBN,
SHL, RND (spec/42_alu.md). -/

namespace Sys2Proof.Machine

/-- Write a result to `x[X]` and go to the next word: the instructions that write no flag. -/
def writeResult (x : Reg) (v : Byte) (s : State) : Host.Outcome State Fault Refusal :=
  (s.setReg x v).advance.finish

/-- The order of R127: `x[0xF]` gets the flag of the operands as they are, then `x[X]` gets the result of
the operand registers as they now are. -/
def flagThenResult (x a b : Reg) (flag result : Byte → Byte → Byte) (s : State) :
    Host.Outcome State Fault Refusal :=
  let t := s.setReg flagReg (flag (s.reg a) (s.reg b))
  writeResult x (result (t.reg a) (t.reg b)) t

/-- `LDB xX, NN` (R120). -/
def execLdb (x : Reg) (nn : Byte) (s : State) : Host.Outcome State Fault Refusal :=
  writeResult x nn s

/-- `ADDB xX, NN` (R121): no flag. -/
def execAddb (x : Reg) (nn : Byte) (s : State) : Host.Outcome State Fault Refusal :=
  writeResult x (s.reg x + nn) s

/-- `MOV xX, xY` (R122). -/
def execMov (x y : Reg) (s : State) : Host.Outcome State Fault Refusal :=
  writeResult x (s.reg y) s

/-- `OR xX, xY` (R123): no flag. -/
def execOr (x y : Reg) (s : State) : Host.Outcome State Fault Refusal :=
  writeResult x (s.reg x ||| s.reg y) s

/-- `AND xX, xY` (R124): no flag. -/
def execAnd (x y : Reg) (s : State) : Host.Outcome State Fault Refusal :=
  writeResult x (s.reg x &&& s.reg y) s

/-- `XOR xX, xY` (R125): no flag. -/
def execXor (x y : Reg) (s : State) : Host.Outcome State Fault Refusal :=
  writeResult x (s.reg x ^^^ s.reg y) s

/-- `ADD xX, xY` (R126, R127). -/
def execAdd (x y : Reg) (s : State) : Host.Outcome State Fault Refusal :=
  flagThenResult x x y carryFlag (fun a b => a + b) s

/-- `SUB xX, xY` (R128, R127): `x[X] - x[Y]`. -/
def execSub (x y : Reg) (s : State) : Host.Outcome State Fault Refusal :=
  flagThenResult x x y noBorrowFlag (fun a b => a - b) s

/-- `SHR xX, xY` (R130, R127). -/
def execShr (x y : Reg) (s : State) : Host.Outcome State Fault Refusal :=
  flagThenResult x (s.shiftReg x y) (s.shiftReg x y) (fun v _ => lowBitFlag v) (fun v _ => v >>> 1) s

/-- `SUBN xX, xY` (R131, R127): `x[Y] - x[X]`. -/
def execSubn (x y : Reg) (s : State) : Host.Outcome State Fault Refusal :=
  flagThenResult x y x noBorrowFlag (fun a b => a - b) s

/-- `SHL xX, xY` (R132, R127). -/
def execShl (x y : Reg) (s : State) : Host.Outcome State Fault Refusal :=
  flagThenResult x (s.shiftReg x y) (s.shiftReg x y) (fun v _ => highBitFlag v) (fun v _ => v <<< 1) s

/-- `RND xX, NN` (R133): one byte is drawn whatever `NN` is. -/
def execRnd (x : Reg) (nn : Byte) (s : State) : Host.Outcome State Fault Refusal :=
  writeResult x (s.drawRnd.1 &&& nn) s.drawRnd.2

end Sys2Proof.Machine
end

