-- ==== Sys2Proof/Machine/Display.lean ====
section
/-! DEFINITION. The display: CLS, DRW (spec/44_display.md). -/

namespace Sys2Proof.Machine

/-- What a draw accumulates: the framebuffer and whether a toggle found its pixel set (R151). -/
structure Drawing where
  fb : Framebuffer
  collision : Bool
  deriving DecidableEq, Repr

/-- One toggle of a draw (R151): a collision if the pixel was set. -/
def Drawing.toggle (d : Drawing) (r : Fin 32) (c : Fin 64) : Drawing :=
  ⟨d.fb.toggle r c, d.collision || d.fb.pixel r c⟩

/-- The first `n` columns of one sprite byte, left to right; columns past the edge land on column 63. -/
def Drawing.columns (d : Drawing) (c0 : Nat) (r : Fin 32) (b : Byte) : Nat → Drawing
  | 0 => d
  | col + 1 =>
    let e := d.columns c0 r b col
    if spriteBit b col then e.toggle r (clampColumn (c0 + col)) else e

/-- The first `n` rows of a sprite, top to bottom, `sprite k` being its k-th byte; rows past the edge land
on row 31. -/
def Drawing.rows (d : Drawing) (c0 r0 : Nat) (sprite : Nat → Byte) : Nat → Drawing
  | 0 => d
  | row + 1 => (d.rows c0 r0 sprite row).columns c0 (clampRow (r0 + row)) (sprite row) 8

/-- The draw of an N-row sprite at `I` with the start coordinates of two register values (R151). -/
def State.draw (s : State) (vx vy : Byte) (n : Nat) : Drawing :=
  Drawing.rows ⟨s.FB, false⟩ (startColumn vx) (startRow vy) (fun k => s.loadByte (s.indexed k)) n

/-- `CLS` (R150). -/
def execCls (s : State) : Host.Outcome State Fault Refusal :=
  (s.display Framebuffer.clear).advance.finish

/-- `DRW xX, xY, N` (R151): the coordinates are read before `x[0xF]` is written. -/
def execDrw (x y : Reg) (n : Nibble) (s : State) : Host.Outcome State Fault Refusal :=
  let d := s.draw (s.reg x) (s.reg y) n.toNat
  ((s.setReg flagReg (flagByte d.collision)).display d.fb).advance.finish

end Sys2Proof.Machine
end

