-- ==== Sys2Proof/Machine/Flow.lean ====
section
/-! DEFINITION. Control transfer: RET, JP, CALL, SEI, SNEI, SER, SNER, JPO (spec/41_flow.md). -/

namespace Sys2Proof.Machine

/-- `RET` (R101, R172). -/
def execRet (s : State) : Host.Outcome State Fault Refusal :=
  match s.pop with
  | some (a, t) => (t.jump (a + 2)).finish
  | none => s.raise .stackUnderflow

/-- `JP NNN` (R102). -/
def execJp (nnn : Addr) (s : State) : Host.Outcome State Fault Refusal :=
  (s.jump (addrWord nnn)).finish

/-- `CALL NNN` (R103, R171): the address pushed is the call's own. -/
def execCall (nnn : Addr) (s : State) : Host.Outcome State Fault Refusal :=
  match s.push s.pc with
  | some t => (t.jump (addrWord nnn)).finish
  | none => s.raise .stackOverflow

/-- `SEI xX, NN` (R104). -/
def execSei (x : Reg) (nn : Byte) (s : State) : Host.Outcome State Fault Refusal :=
  (s.skipIf (s.reg x == nn)).finish

/-- `SNEI xX, NN` (R105). -/
def execSnei (x : Reg) (nn : Byte) (s : State) : Host.Outcome State Fault Refusal :=
  (s.skipIf (s.reg x != nn)).finish

/-- `SER xX, xY` (R106). -/
def execSer (x y : Reg) (s : State) : Host.Outcome State Fault Refusal :=
  (s.skipIf (s.reg x == s.reg y)).finish

/-- `SNER xX, xY` (R107). -/
def execSner (x y : Reg) (s : State) : Host.Outcome State Fault Refusal :=
  (s.skipIf (s.reg x != s.reg y)).finish

/-- `JPO NNN` (R108): the sum is not reduced to 12 bits. -/
def execJpo (nnn : Addr) (s : State) : Host.Outcome State Fault Refusal :=
  (s.jump (addrWord nnn + byteWord (s.reg 0))).finish

end Sys2Proof.Machine
end

