-- ==== Sys2Proof/Machine/Index.lean ====
section
/-! DEFINITION. The index register and memory: LDI, ADDI, LDF, BCD, DUMP, LOAD
(spec/43_index_memory.md). -/

namespace Sys2Proof.Machine

/-- `LDI NNN` (R140). -/
def execLdi (nnn : Addr) (s : State) : Host.Outcome State Fault Refusal :=
  (s.setI (addrWord nnn)).advance.finish

/-- `ADDI xX` (R141): sum and flag from the values at the start, `I` first, `x[0xF]` last. -/
def execAddi (x : Reg) (s : State) : Host.Outcome State Fault Refusal :=
  ((s.setI (s.I + byteWord (s.reg x))).setReg flagReg (indexOverflowFlag s.I (s.reg x))).advance.finish

/-- `LDF xX` (R142). -/
def execLdf (x : Reg) (s : State) : Host.Outcome State Fault Refusal :=
  (s.setI (glyphAddress (s.reg x))).advance.finish

/-- `BCD xX` (R143): hundreds, tens, ones at `I`, `I + 1`, `I + 2`. -/
def execBcd (x : Reg) (s : State) : Host.Outcome State Fault Refusal :=
  let v := s.reg x
  (((s.storeByte (s.indexed 0) (hundreds v)).storeByte (s.indexed 1) (tens v)).storeByte
    (s.indexed 2) (ones v)).advance.finish

/-- Store `x[0]` to `x[n - 1]` at `I` to `I + n - 1`, in ascending order (R145, R53). -/
def State.dumpRegs (s : State) : Nat → State
  | 0 => s
  | k + 1 => (s.dumpRegs k).storeByte (s.indexed k) (s.reg (BitVec.ofNat 4 k))

/-- Load `x[0]` to `x[n - 1]` from `I` to `I + n - 1`, in ascending order (R146). -/
def State.loadRegs (s : State) : Nat → State
  | 0 => s
  | k + 1 => (s.loadRegs k).setReg (BitVec.ofNat 4 k) (s.loadByte (s.indexed k))

/-- `DUMP xX` (R145): field X is a count, registers 0 to X. -/
def execDump (x : Reg) (s : State) : Host.Outcome State Fault Refusal :=
  (s.dumpRegs (x.toNat + 1)).advance.finish

/-- `LOAD xX` (R146): field X is a count, registers 0 to X. -/
def execLoad (x : Reg) (s : State) : Host.Outcome State Fault Refusal :=
  (s.loadRegs (x.toNat + 1)).advance.finish

end Sys2Proof.Machine
end

