-- ==== Sys2Proof/Machine/KeysTimers.lean ====
section
/-! DEFINITION. Keys and timers: SKP, SKNP, GDT, WKEY, SDT, SST (spec/45_keys_timers.md). -/

namespace Sys2Proof.Machine

/-- `SKP xX` (R160). -/
def execSkp (x : Reg) (s : State) : Host.Outcome State Fault Refusal :=
  (s.skipIf (s.keyHeld (s.reg x))).finish

/-- `SKNP xX` (R161). -/
def execSknp (x : Reg) (s : State) : Host.Outcome State Fault Refusal :=
  (s.skipIf (!s.keyHeld (s.reg x))).finish

/-- `GDT xX` (R163): the value before this cycle's tick. -/
def execGdt (x : Reg) (s : State) : Host.Outcome State Fault Refusal :=
  (s.setReg x s.DT).advance.finish

/-- `WKEY xX` (R162): the highest held key, or a cycle that waits. -/
def execWkey (x : Reg) (s : State) : Host.Outcome State Fault Refusal :=
  match highestKey s.key with
  | some k => (s.setReg x (BitVec.ofNat 8 k)).advance.finish
  | none => s.wait

/-- `SDT xX` (R164). -/
def execSdt (x : Reg) (s : State) : Host.Outcome State Fault Refusal :=
  (s.setDT (s.reg x)).advance.finish

/-- `SST xX` (R165). -/
def execSst (x : Reg) (s : State) : Host.Outcome State Fault Refusal :=
  (s.setST (s.reg x)).advance.finish

end Sys2Proof.Machine
end

