-- ==== Sys2Proof/Machine/Step.lean ====
section
/-! DEFINITION. One step of the machine: one cycle (spec/40_cycle.md R90). -/

namespace Sys2Proof.Machine

/-- One cycle, in the order of R90: the fault latch, fetch, decode, execute (with the instruction's own
test for `Waiting` and the stack conditions), tick. -/
def step (s : State) : Host.Outcome State Fault Refusal :=
  let b := s.beginCycle
  if b.fault then .next b.halt
  else
    match decode b.fetch with
    | .error _ => .next (b.reportUnknown b.fetch).endCycle
    | .ok i =>
      match exec i b with
      | .next t => .next t.endCycle
      | .fault r => .fault r
      | .refused r => .refused r

/-- The state with the instruction of an opcode-table row where the next cycle fetches it: the high byte
at `pc`, the low byte at `pc + 1` (R52). -/
def State.withFetchWord (s : State) (nbits w : Nat) : State :=
  (s.storeByte s.pc (highByte (tableWord nbits w))).storeByte (s.pc + 1)
    (lowByte (tableWord nbits w))

end Sys2Proof.Machine
end

