-- ==== Sys2Proof/Machine/Ports.lean ====
section
/-! DEFINITION. The host's actions on the core, between cycles and only there
(spec/60_exceptions.md R184, spec/70_reset_and_hazards.md). Starting a cycle is `step`; reading an output
is reading a field of State. -/

namespace Sys2Proof.Machine

/-- Why a load fails (R189, R194). `ReadError` and `NotFound` are failures to obtain an image, so they
reach no operation on one (log entry 23). -/
inductive LoadError where
  | imageTooLarge
  deriving DecidableEq, Repr

/-- `reset` (R190, D23): every piece of the core's state at its reset value. The parameters of R7 are the
machine's and the pending inputs are the host's, so they stay. -/
def State.hostReset (s : State) : State :=
  { State.reset with
    font := s.font, shiftSrc := s.shiftSrc, keyIn := s.keyIn, rndIn := s.rndIn,
    rndDraws := s.rndDraws }

/-- Write bytes to consecutive addresses. -/
def State.storeBytes (s : State) (a : Word) : List Byte → State
  | [] => s
  | v :: rest => (s.storeByte a v).storeBytes (a + 1) rest

/-- `load(image)` (R194, R195): the whole image at 0x200, or nothing and `ImageTooLarge`. -/
def State.loadImage (s : State) (image : List Byte) : Except LoadError State :=
  if image.length ≤ Config.maxImage then .ok (s.storeBytes Config.entry image)
  else .error .imageTooLarge

/-- The key states the host presents to the coming cycles (R186). -/
def State.presentKeys (s : State) (keys : List Keys) : State := { s with keyIn := s.keyIn ++ keys }

/-- The random bytes the host makes ready (R187). -/
def State.presentRnd (s : State) (bytes : List Byte) : State := { s with rndIn := s.rndIn ++ bytes }

/-- `ack_redraw` (R185): the only thing that clears the redraw flag. -/
def State.ackRedraw (s : State) : State := { s with redraw := false }

end Sys2Proof.Machine
end

