-- ==== Sys2Proof/Safety.lean ====
section
/-! DEFINITION. The terms the claims are stated in: what counts as a safe run, the invariant, what a step
leaves unchanged, and the spec's own whole-machine tables. -/

namespace Sys2Proof.Machine

/-! ## Safe runs and the invariant -/

/-- A state no fatal condition has stopped and whose last cycle reported no unrecognised word
(spec/60_exceptions.md R173, R174). -/
def State.safe (s : State) : Bool := !s.fault && s.unknown.isNone

/-- The invariant of the model: memory is in canonical form (spec/20_memory.md R50 as plain data), and
the fault latch is set exactly when its record names a cause (spec/60_exceptions.md R173). -/
abbrev State.Inv (s : State) : Prop :=
  Memory.wf s.font s.mem ∧ (s.fault = true ↔ s.faultCause ≠ none)

/-! ## Frames -/

/-- The parts of the state a frame speaks of. -/
inductive Part where
  | regs
  | memory
  | index
  | pc
  | stack
  | delay
  | sound
  | screen
  | redraw
  | fault
  | keys
  | random
  | params
  | result
  | events
  deriving DecidableEq, Repr

/-- Two states agree on a part. Memory is compared byte by byte, through the model's read of one byte. -/
def Part.same : Part → State → State → Prop
  | .regs, s, t => ∀ r, t.reg r = s.reg r
  | .memory, s, t => ∀ a, t.loadByte a = s.loadByte a
  | .index, s, t => t.I = s.I
  | .pc, s, t => t.pc = s.pc
  | .stack, s, t => t.stack = s.stack ∧ t.SP = s.SP
  | .delay, s, t => t.DT = s.DT
  | .sound, s, t => t.ST = s.ST
  | .screen, s, t => t.FB = s.FB
  | .redraw, s, t => t.redraw = s.redraw
  | .fault, s, t => t.fault = s.fault ∧ t.faultCause = s.faultCause ∧ t.faultPc = s.faultPc
  | .keys, s, t => t.key = s.key ∧ t.keyIn = s.keyIn
  | .random, s, t => t.rndIn = s.rndIn ∧ t.rndDraws = s.rndDraws
  | .params, s, t => t.font = s.font ∧ t.shiftSrc = s.shiftSrc
  | .result, s, t => t.result = s.result
  | .events, s, t => t.beep = s.beep ∧ t.unknown = s.unknown

/-- Every part of the state but the listed ones is unchanged. -/
def KeepsAllBut (parts : List Part) (s t : State) : Prop := ∀ p, p ∉ parts → p.same s t

/-- Every general register but the listed ones is unchanged. -/
def KeepsRegsBut (dst : List Reg) (s t : State) : Prop := ∀ r, r ∉ dst → t.reg r = s.reg r

/-- Every byte of memory but those at the listed indices is unchanged. -/
def KeepsBytesBut (cells : List Nat) (s t : State) : Prop :=
  ∀ a, memIndex a ∉ cells → t.loadByte a = s.loadByte a

/-- `exec` answers a NEXT state for the instruction: the cycle's result is `Advanced`, `pc` is the target,
every part of the state but `pc`, the result and the listed parts is unchanged, and the next state is as
`post` says. -/
def Completes (i : Instr) (s : State) (target : Word) (parts : List Part) (post : State → Prop) : Prop :=
  ∃ t, exec i s = .next t ∧ t.result = some .advanced ∧ t.pc = target ∧
    KeepsAllBut (.pc :: .result :: parts) s t ∧ post t

/-! ## Whole-machine tables -/

/-- The new `pc` of an instruction that completes, waits or raises (spec/41_flow.md R100). -/
def nextPc : Instr → State → Word
  | .ret, s => if h : 0 < s.SP.val then s.stack[s.SP.val - 1]'(by omega) + 2 else s.pc
  | .jp nnn, _ => nnn.setWidth 16
  | .call nnn, s => if s.SP.val < 16 then nnn.setWidth 16 else s.pc
  | .jpo nnn, s => nnn.setWidth 16 + (s.reg 0).setWidth 16
  | .sei x nn, s => if s.reg x = nn then s.pc + 4 else s.pc + 2
  | .snei x nn, s => if s.reg x ≠ nn then s.pc + 4 else s.pc + 2
  | .ser x y, s => if s.reg x = s.reg y then s.pc + 4 else s.pc + 2
  | .sner x y, s => if s.reg x ≠ s.reg y then s.pc + 4 else s.pc + 2
  | .skp x, s => if s.key.getLsbD ((s.reg x).toNat % 16) then s.pc + 4 else s.pc + 2
  | .sknp x, s => if s.key.getLsbD ((s.reg x).toNat % 16) then s.pc + 2 else s.pc + 4
  | .wkey _, s => if s.key = 0 then s.pc else s.pc + 2
  | .cls, s => s.pc + 2
  | .ldb _ _, s => s.pc + 2
  | .addb _ _, s => s.pc + 2
  | .mov _ _, s => s.pc + 2
  | .or _ _, s => s.pc + 2
  | .and _ _, s => s.pc + 2
  | .xor _ _, s => s.pc + 2
  | .add _ _, s => s.pc + 2
  | .sub _ _, s => s.pc + 2
  | .shr _ _, s => s.pc + 2
  | .subn _ _, s => s.pc + 2
  | .shl _ _, s => s.pc + 2
  | .ldi _, s => s.pc + 2
  | .rnd _ _, s => s.pc + 2
  | .drw _ _ _, s => s.pc + 2
  | .gdt _, s => s.pc + 2
  | .sdt _, s => s.pc + 2
  | .sst _, s => s.pc + 2
  | .addi _, s => s.pc + 2
  | .ldf _, s => s.pc + 2
  | .bcd _, s => s.pc + 2
  | .dump _, s => s.pc + 2
  | .load _, s => s.pc + 2

/-- The general registers an instruction may write: its destination, the range of `LOAD`, and `x[0xF]`
for the seven instructions of spec/10_state.md R22. -/
def destRegs : Instr → List Reg
  | .ldb x _ => [x]
  | .addb x _ => [x]
  | .mov x _ => [x]
  | .or x _ => [x]
  | .and x _ => [x]
  | .xor x _ => [x]
  | .rnd x _ => [x]
  | .gdt x => [x]
  | .wkey x => [x]
  | .add x _ => [x, 0xF]
  | .sub x _ => [x, 0xF]
  | .shr x _ => [x, 0xF]
  | .subn x _ => [x, 0xF]
  | .shl x _ => [x, 0xF]
  | .drw _ _ _ => [0xF]
  | .addi _ => [0xF]
  | .load x => (List.range (x.toNat + 1)).map (BitVec.ofNat 4)
  | .cls => []
  | .ret => []
  | .jp _ => []
  | .call _ => []
  | .sei _ _ => []
  | .snei _ _ => []
  | .ser _ _ => []
  | .sner _ _ => []
  | .ldi _ => []
  | .jpo _ => []
  | .skp _ => []
  | .sknp _ => []
  | .sdt _ => []
  | .sst _ => []
  | .ldf _ => []
  | .bcd _ => []
  | .dump _ => []

/-- The indices into memory an instruction stores to, from the addresses its meaning computes
(spec/20_memory.md R53, R56): three bytes for `BCD`, X + 1 for `DUMP`, none for any other. -/
def storedCells : Instr → State → List Nat
  | .bcd _, s => (List.range 3).map (fun k => memIndex (s.indexed k))
  | .dump x, s => (List.range (x.toNat + 1)).map (fun k => memIndex (s.indexed k))
  | .cls, _ => []
  | .ret, _ => []
  | .jp _, _ => []
  | .call _, _ => []
  | .sei _ _, _ => []
  | .snei _ _, _ => []
  | .ser _ _, _ => []
  | .ldb _ _, _ => []
  | .addb _ _, _ => []
  | .mov _ _, _ => []
  | .or _ _, _ => []
  | .and _ _, _ => []
  | .xor _ _, _ => []
  | .add _ _, _ => []
  | .sub _ _, _ => []
  | .shr _ _, _ => []
  | .subn _ _, _ => []
  | .shl _ _, _ => []
  | .sner _ _, _ => []
  | .ldi _, _ => []
  | .jpo _, _ => []
  | .rnd _ _, _ => []
  | .drw _ _ _, _ => []
  | .skp _, _ => []
  | .sknp _, _ => []
  | .gdt _, _ => []
  | .wkey _, _ => []
  | .sdt _, _ => []
  | .sst _, _ => []
  | .addi _, _ => []
  | .ldf _, _ => []
  | .load _, _ => []

/-- How often a draw hits a pixel (spec/44_display.md R151, corner case (e)): the pairs of a sprite row
and a column whose bit is set (bit 7 leftmost) and whose clamped position is that pixel. -/
def spriteHits (c0 r0 : Nat) (sprite : Nat → Byte) (n : Nat) (r : Fin 32) (c : Fin 64) : Nat :=
  ((List.range n).map fun row =>
    (List.range 8).countP fun col =>
      (sprite row).getLsbD (7 - col) && min (r0 + row) 31 == r.val && min (c0 + col) 63 == c.val).sum

/-- How often `DRW xX, xY, N` hits a pixel in a state: start coordinates modulo the width and height, the
sprite bytes at `I` (R151). -/
def drwHits (s : State) (x y : Reg) (n : Nibble) (r : Fin 32) (c : Fin 64) : Nat :=
  spriteHits ((s.reg x).toNat % 64) ((s.reg y).toNat % 32) (fun k => s.loadByte (s.indexed k)) n.toNat r c

/-- The unrecognised words as spec/30_encoding.md R79 lists them. -/
def unrecognised (w : Word) : Prop :=
  let c := w.toNat / 4096
  let n := w.toNat % 16
  let nn := w.toNat % 256
  (c = 0 ∧ w ≠ 0x00E0 ∧ w ≠ 0x00EE) ∨
  (c = 8 ∧ (8 ≤ n ∧ n ≤ 13 ∨ n = 15)) ∨
  (c = 14 ∧ nn ≠ 0x9E ∧ nn ≠ 0xA1) ∨
  (c = 15 ∧ nn ∉ [0x07, 0x0A, 0x15, 0x18, 0x1E, 0x29, 0x33, 0x55, 0x65])

end Sys2Proof.Machine
end

