-- ==== Sys2Proof/Certificates/Slice0/Obligations.lean ====
section
/-! DEFINITION. The statements for the provers. Each docstring names the rule of spec/ it formalises, or the
sections and log entries it rests on. `Completes` (Sys2Proof/Safety.lean) says that exec answers a next
state and what it leaves unchanged. -/

open Sys2Proof Sys2Proof.Machine

/-! ## Reset and the host's actions -/

/-- 10_state.md section 8: every reset value. The latch and its record are decision D4, and that the record's cause
is none at reset is the model's choice (log entry 10); that a 16-bit address is reduced modulo 4096 is decision D2
(log entry 8). -/
def Obligations.ResetHoldsTableValues : Prop :=
  (∀ r, State.reset.reg r = 0) ∧ State.reset.I = 0 ∧ State.reset.pc = 0x0200 ∧ State.reset.SP = 0 ∧
  (∀ k : Fin 16, State.reset.stack[k] = 0) ∧ State.reset.DT = 0 ∧ State.reset.ST = 0 ∧
  (∀ r c, State.reset.FB.pixel r c = false) ∧ State.reset.redraw = false ∧
  State.reset.fault = false ∧ State.reset.faultCause = none ∧ State.reset.faultPc = 0 ∧
  State.reset.key = 0 ∧
  (∀ a : Word, State.reset.loadByte a =
    if h : 0x50 ≤ a.toNat % 4096 ∧ a.toNat % 4096 < 0xA0 then
      State.reset.font[a.toNat % 4096 - 0x50]'(by omega) else 0) ∧
  State.reset.fetch = composeWord (State.reset.loadByte 0x200) (State.reset.loadByte 0x201)

/-- The invariant holds right after reset. Its canonical form of memory is the model's own representation (log
entry 27); that the latch is set exactly when its record names a cause is decision D4 with the model's choice of no
cause at reset (log entry 10). -/
def Obligations.ResetMeetsStateInv : Prop := State.reset.Inv

/-- 70_reset_and_hazards.md section 1 with 10_state.md section 8, decisions D4 and D23 (log entries 10 and 22): the
reset action puts memory, the registers, the latch with its record, the keys and the outputs at their reset values
whatever the state was, and keeps the parameters. That the record's cause and the cycle's result are none at reset
is the model's choice (log entries 10 and 5); that a 16-bit address is reduced modulo 4096 is decision D2 (log entry
8); the canonical form of memory in the invariant is the model's own representation (log entry 27). -/
def Obligations.HostResetRestoresEverything : Prop :=
  ∀ s : State,
    (∀ r, s.hostReset.reg r = 0) ∧ s.hostReset.I = 0 ∧ s.hostReset.pc = 0x0200 ∧ s.hostReset.SP = 0 ∧
    (∀ k : Fin 16, s.hostReset.stack[k] = 0) ∧ s.hostReset.DT = 0 ∧ s.hostReset.ST = 0 ∧
    (∀ r c, s.hostReset.FB.pixel r c = false) ∧ s.hostReset.redraw = false ∧
    s.hostReset.fault = false ∧ s.hostReset.faultCause = none ∧ s.hostReset.faultPc = 0 ∧
    s.hostReset.key = 0 ∧ s.hostReset.result = none ∧ s.hostReset.beep = false ∧ s.hostReset.unknown = none ∧
    s.hostReset.font = s.font ∧ s.hostReset.shiftSrc = s.shiftSrc ∧
    (∀ a : Word, s.hostReset.loadByte a =
      if h : 0x50 ≤ a.toNat % 4096 ∧ a.toNat % 4096 < 0xA0 then
        s.font[a.toNat % 4096 - 0x50]'(by omega) else 0) ∧
    s.hostReset.Inv

/-- R194: an image of at most 3583 bytes goes to 0x200 and on, byte by byte, and nothing else changes; a
longer one is `ImageTooLarge` and no state results. -/
def Obligations.LoadImagePlacesBytes : Prop :=
  ∀ (s : State) (image : List Byte),
    (image.length ≤ 3583 → ∃ t, s.loadImage image = .ok t ∧
      (∀ (j : Nat) (h : j < image.length), t.loadByte (0x200 + BitVec.ofNat 16 j) = image[j]) ∧
      KeepsBytesBut ((List.range image.length).map (0x200 + ·)) s t ∧
      KeepsAllBut [.memory] s t) ∧
    (3583 < image.length → s.loadImage image = .error .imageTooLarge)

/-- 60_exceptions.md section 4, decision D14 (log entry 19): `ack_redraw` clears the flag and nothing else,
and no step clears it. -/
def Obligations.RedrawClearedOnlyByAcknowledge : Prop :=
  (∀ s : State, s.ackRedraw.redraw = false ∧ KeepsAllBut [.redraw] s s.ackRedraw) ∧
  (∀ s t : State, step s = .next t → s.redraw = true → t.redraw = true)

/-! ## Decoding and encoding -/

/-- Words written out from 30_encoding.md section 3 and 95_test_vectors.md (opcode numbers:
decision D19, log entry 6; the ignored low nibble of 0x5127: decision D10, log entry 15; `LDI`, the word 0xA2F0:
decision D18, log entry 7). -/
def Obligations.TableWordsDecode : Prop :=
  decode 0x00E0 = .ok .cls ∧ decode 0x00EE = .ok .ret ∧ decode 0x1ABC = .ok (.jp 0xABC) ∧
  decode 0x332A = .ok (.sei 3 0x2A) ∧ decode 0x5127 = .ok (.ser 1 2) ∧
  decode 0x8AB4 = .ok (.add 0xA 0xB) ∧ decode 0x812E = .ok (.shl 1 2) ∧
  decode 0xA2F0 = .ok (.ldi 0x2F0) ∧ decode 0xD7A5 = .ok (.drw 7 0xA 5) ∧
  decode 0xE5A1 = .ok (.sknp 5) ∧ decode 0xF533 = .ok (.bcd 5)

/-- Decoding the encoding of an instruction gives it back, with every operand at every value
(30_encoding.md sections 1 to 4; opcode numbers: decision D19, log entry 6; `LDI`: decision D18, log entry 7). -/
def Obligations.DecodeEncodeRoundTrip : Prop := ∀ i : Instr, decode (encode i) = .ok i

/-- A word that decodes is the encoding of what it decodes to, but for the low nibble of classes 0x5 and
0x9, which is ignored (30_encoding.md sections 3 and 4, decision D10, log entry 15). That no class-0 word but 0x00E0
and 0x00EE decodes is decision D9 (log entry 14); the opcode numbers are decision D19 (log entry 6), and `LDI` is
decision D18 (log entry 7). -/
def Obligations.DecodedWordIsItsEncoding : Prop :=
  ∀ (w : Word) (i : Instr), decode w = .ok i →
    encode i = if fieldC w = 0x5 ∨ fieldC w = 0x9 then w &&& 0xFFF0 else w

/-- 30_encoding.md section 4 (the rule R79), decisions D9, D16 and D19 (log entries 14, 5 and 6): which words
are unrecognised, and what a cycle does on one. -/
def Obligations.UnrecognisedWordReportsAndAdvances : Prop :=
  (∀ w : Word, (∃ e, decode w = .error e) ↔ unrecognised w) ∧
  (∀ s : State, s.fault = false → unrecognised s.fetch →
    ∃ t, step s = .next t ∧ t.result = some .advanced ∧ t.pc = s.pc + 2 ∧
      t.unknown = some ⟨s.fetch, s.pc⟩ ∧
      t.DT.toNat = s.DT.toNat - 1 ∧ t.ST.toNat = s.ST.toNat - 1 ∧ (t.beep = true ↔ s.ST = 1) ∧
      KeepsAllBut [.pc, .result, .events, .delay, .sound, .keys] s t)

/-! ## The cycle -/

/-- 20_memory.md sections 1 and 2 (R52), decision D2 (log entry 8): the fetched word is big-endian, its two
addresses reduced on their own. -/
def Obligations.FetchIsBigEndian : Prop :=
  ∀ s : State,
    s.fetch.toNat = 256 * (s.loadByte s.pc).toNat + (s.loadByte (s.pc + 1)).toNat ∧
    (∀ a b : Word, a.toNat % 4096 = b.toNat % 4096 → s.loadByte a = s.loadByte b) ∧
    (s.pc.toNat % 4096 = 0xFFF → s.loadByte (s.pc + 1) = s.loadByte 0)

/-- 40_cycle.md: a cycle that decodes an instruction is that instruction's exec between the start of the
cycle, which samples the keys (log entry 1) and drops the last cycle's outputs, and its end, which may
tick. -/
def Obligations.StepRunsDecodedInstruction : Prop :=
  ∀ (s : State) (i : Instr), s.fault = false → decode s.fetch = .ok i →
    (step s = match exec i s.beginCycle with
      | .next t => .next t.endCycle
      | .fault f => .fault f
      | .refused f => .refused f) ∧
    s.beginCycle.key = s.keyIn.headD s.key ∧ s.beginCycle.keyIn = s.keyIn.tail ∧
    s.beginCycle.beep = false ∧ s.beginCycle.unknown = none ∧
    KeepsAllBut [.keys, .result, .events] s s.beginCycle ∧
    (∀ t : State, KeepsAllBut [.delay, .sound, .events] t t.endCycle ∧ t.endCycle.unknown = t.unknown)

/-- 60_exceptions.md section 3 (R180), decision D22 (log entry 21): what the tick does to the timers, when it
emits `beep`, and which cycles tick. -/
def Obligations.TickCountsDown : Prop :=
  ∀ s : State,
    (s.result = some .advanced →
      s.endCycle.DT.toNat = s.DT.toNat - 1 ∧ s.endCycle.ST.toNat = s.ST.toNat - 1 ∧
      (s.beep = false → (s.endCycle.beep = true ↔ s.ST = 1))) ∧
    (s.result ≠ some .advanced → s.endCycle = s) ∧
    KeepsAllBut [.delay, .sound, .events] s s.endCycle ∧ s.endCycle.unknown = s.unknown

/-- R94 and 60_exceptions.md section 3, decision D22 (log entry 21): over a whole cycle the timers lose one
unless the cycle's instruction set them, in every `Advanced` cycle and in no other. -/
def Obligations.StepTimersCountPerCompletedCycle : Prop :=
  ∀ s t : State, step s = .next t →
    (t.result = some .advanced →
      ((∀ x, decode s.fetch ≠ .ok (.sdt x)) → t.DT.toNat = s.DT.toNat - 1) ∧
      ((∀ x, decode s.fetch ≠ .ok (.sst x)) → t.ST.toNat = s.ST.toNat - 1) ∧
      (∀ x, decode s.fetch = .ok (.sdt x) → t.DT.toNat = (s.reg x).toNat - 1) ∧
      (∀ x, decode s.fetch = .ok (.sst x) → t.ST.toNat = (s.reg x).toNat - 1)) ∧
    (t.result ≠ some .advanced → t.DT = s.DT ∧ t.ST = s.ST ∧ t.beep = false)

/-- 60_exceptions.md section 3 (R181), decision D22 (log entry 21) for the cycles that do not tick: one beep in the
cycle whose tick takes the sound timer from 1 to 0, and in no other. That `SST` with 0 while the timer runs emits
none is an inference R181 marks as its own (from R180). -/
def Obligations.BeepExactlyOnOneToZero : Prop :=
  ∀ s t : State, step s = .next t →
    ((∀ x, decode s.fetch ≠ .ok (.sst x)) →
      (t.beep = true ↔ t.result = some .advanced ∧ s.ST = 1)) ∧
    (∀ x, decode s.fetch = .ok (.sst x) →
      (t.beep = true ↔ t.result = some .advanced ∧ s.reg x = 1))

/-- Every state has a next state (30_encoding.md section 4, 40_cycle.md): no encoding traps; no access faults, which
is decision D2 (log entry 8); the fatal conditions latch, and a latched core, stopped for good by R173, answers
`Halted`, which are decisions D4 and D28 (log entry 10). -/
def Obligations.EveryStepAnswersNext : Prop := ∀ s : State, ∃ t, step s = .next t

/-- The invariant is kept by every step, from every state that meets it. Its canonical form of memory is the
model's own representation (log entry 27); that the latch is set exactly when its record names a cause is decision
D4 with the model's choice of no cause at reset (log entry 10). -/
def Obligations.StepKeepsStateInv : Prop :=
  ∀ s t : State, s.Inv → step s = .next t → t.Inv

/-- 60_exceptions.md section 1, decisions D4 and D28 (log entry 10): once the latch is set, any number of
cycles changes nothing but the sampled keys and the outputs, and each is `Halted` with no event. -/
def Obligations.FaultedCoreStaysHalted : Prop :=
  ∀ (n : Nat) (s : State), s.fault = true →
    ∃ t, Sys2Proof.core.run (n + 1) s = .next t ∧ KeepsAllBut [.keys, .result, .events] s t ∧
      t.result = some .halted ∧ t.beep = false ∧ t.unknown = none

/-- 60_exceptions.md section 1, decision D4 (log entry 10): the cycle of a `CALL` on a full stack and of a
`RET` on an empty one writes the latch and its record, and nothing else of the core; no tick. -/
def Obligations.StackConditionLatchesFault : Prop :=
  ∀ s : State, s.fault = false →
    (∀ nnn, decode s.fetch = .ok (.call nnn) → s.SP.val = 16 →
      ∃ t, step s = .next t ∧ t.fault = true ∧ t.faultCause = some .stackOverflow ∧ t.faultPc = s.pc ∧
        t.result = some .faulted ∧ t.beep = false ∧ t.unknown = none ∧
        KeepsAllBut [.fault, .result, .events, .keys] s t) ∧
    (decode s.fetch = .ok .ret → s.SP.val = 0 →
      ∃ t, step s = .next t ∧ t.fault = true ∧ t.faultCause = some .stackUnderflow ∧ t.faultPc = s.pc ∧
        t.result = some .faulted ∧ t.beep = false ∧ t.unknown = none ∧
        KeepsAllBut [.fault, .result, .events, .keys] s t)

/-- 45_keys_timers.md (corner case (c) of wait-for-key) and conflict C5: while no key is held any number of
cycles on a wait-for-key changes nothing but the sampled keys and the outputs; no event is emitted. The cycles after
the presented key states are used up see the keys of the cycle before, here none held: the model's choice (log
entry 1). -/
def Obligations.WaitingRunChangesNothing : Prop :=
  ∀ (n : Nat) (s : State) (x : Reg), s.fault = false → decode s.fetch = .ok (.wkey x) →
    s.key = 0 → (∀ k ∈ s.keyIn, k = 0) →
    ∃ t, Sys2Proof.core.run (n + 1) s = .next t ∧ KeepsAllBut [.keys, .result, .events] s t ∧
      t.result = some .waiting ∧ t.beep = false ∧ t.unknown = none

/-- 20_memory.md section 7 (fetch coherence): a `DUMP` that stores over the next instruction's two bytes is
seen by the next fetch; addresses are reduced modulo 4096, decisions D2 and D25 (log entry 8). -/
def Obligations.DumpOverNextWordIsFetched : Prop :=
  ∀ s t : State, s.I = s.pc + 2 → exec (.dump 1) s = .next t →
    t.fetch = composeWord (s.reg 0) (s.reg 1)

/-! ## Whole-machine rules -/

/-- 41_flow.md (R100), decision D8 for the key skips (log entry 13): the new `pc` of every instruction, and of
an unrecognised word. -/
def Obligations.PcFollowsTable : Prop :=
  (∀ (i : Instr) (s t : State), exec i s = .next t → t.pc = nextPc i s) ∧
  (∀ (s t : State) (e : DecodeError), s.fault = false → decode s.fetch = .error e →
    step s = .next t → t.pc = s.pc + 2)

/-- 10_state.md sections 2 and 3, decision D7 (log entry 12): an instruction writes its destination
registers and, for the seven of the table, `x[0xF]`; every other register is unchanged. -/
def Obligations.OnlyDestinationRegistersChange : Prop :=
  ∀ (i : Instr) (s t : State), exec i s = .next t → KeepsRegsBut (destRegs i) s t

/-- 20_memory.md sections 1 and 4: only `BCD` and `DUMP` write memory, at the addresses they compute. -/
def Obligations.OnlyStoredBytesChange : Prop :=
  ∀ (i : Instr) (s t : State), exec i s = .next t → KeepsBytesBut (storedCells i s) s t

/-- 10_state.md section 4: `I` is written by `LDI`, `ADDI` and `LDF` only. -/
def Obligations.OnlyIndexInstructionsWriteI : Prop :=
  ∀ (i : Instr) (s t : State), exec i s = .next t → t.I ≠ s.I →
    (∃ nnn, i = .ldi nnn) ∨ (∃ x, i = .addi x) ∨ (∃ x, i = .ldf x)

/-- 10_state.md section 4: the stack and its pointer are written by `CALL` and `RET` only, `SP` moves by one,
and no entry below both the old and the new `SP` changes. -/
def Obligations.OnlyCallAndReturnMoveStack : Prop :=
  ∀ (i : Instr) (s t : State), exec i s = .next t →
    ((∀ nnn, i ≠ .call nnn) → i ≠ .ret → t.stack = s.stack ∧ t.SP = s.SP) ∧
    (∀ nnn, i = .call nnn → t.SP = s.SP ∨ t.SP.val = s.SP.val + 1) ∧
    (i = .ret → t.stack = s.stack ∧ (t.SP = s.SP ∨ t.SP.val + 1 = s.SP.val)) ∧
    (∀ k : Fin 16, k.val < s.SP.val → t.stack[k] = s.stack[k])

/-- 40_cycle.md (Execute): no instruction but `CALL` and `RET` can raise a condition, so every other one
leaves the latch and its record as they were and is never `Faulted`. -/
def Obligations.OnlyCallAndReturnRaise : Prop :=
  ∀ (i : Instr) (s t : State), exec i s = .next t → (∀ nnn, i ≠ .call nnn) → i ≠ .ret →
    Part.same .fault s t ∧ t.result ≠ some .faulted

/-- 10_state.md section 6 and 7: the framebuffer is written by `CLS` and `DRW` only, which always set
`redraw`; the timers by `SDT` and `SST` only (and the tick); the keys, the parameters and the events by no
instruction. -/
def Obligations.DisplayAndTimersWrittenByTheirOwn : Prop :=
  ∀ (i : Instr) (s t : State), exec i s = .next t →
    ((i ≠ .cls ∧ ∀ x y n, i ≠ .drw x y n) → t.FB = s.FB ∧ t.redraw = s.redraw) ∧
    ((i = .cls ∨ ∃ x y n, i = .drw x y n) → t.redraw = true) ∧
    ((∀ x, i ≠ .sdt x) → t.DT = s.DT) ∧ ((∀ x, i ≠ .sst x) → t.ST = s.ST) ∧
    Part.same .keys s t ∧ Part.same .params s t ∧ Part.same .events s t

/-- 60_exceptions.md section 2: a program learns of the keys only through `SKP`, `SKNP` and `WKEY`; every
other instruction does the same whatever the keys are. -/
def Obligations.OnlyKeyInstructionsSeeKeys : Prop :=
  ∀ (i : Instr) (s t : State) (k : Keys),
    (∀ x, i ≠ .skp x) → (∀ x, i ≠ .sknp x) → (∀ x, i ≠ .wkey x) →
    exec i s = .next t → exec i { s with key := k } = .next { t with key := k }

/-- 10_state.md section 7: no instruction reads `ST`, `redraw` or the fault latch, so a change of them before
an instruction changes nothing else after it. `SST` overwrites `ST`, `CLS` and `DRW` overwrite `redraw`;
`CALL` and `RET` may overwrite the latch and are left out of its clause. -/
def Obligations.UnreadableStateIsNotRead : Prop :=
  ∀ (i : Instr) (s t : State) (v : Byte) (b : Bool) (c : Option StackCondition) (a : Word),
    exec i s = .next t →
    ((∀ x, i ≠ .sst x) → exec i { s with ST := v } = .next { t with ST := v }) ∧
    (∀ x, i = .sst x → exec i { s with ST := v } = .next t) ∧
    (i ≠ .cls → (∀ x y n, i ≠ .drw x y n) → exec i { s with redraw := b } = .next { t with redraw := b }) ∧
    (i = .cls ∨ (∃ x y n, i = .drw x y n) → exec i { s with redraw := b } = .next t) ∧
    ((∀ nnn, i ≠ .call nnn) → i ≠ .ret →
      exec i { s with fault := b, faultCause := c, faultPc := a } =
        .next { t with fault := b, faultCause := c, faultPc := a })

/-! ## Control transfer (41_flow.md) -/

/-- 41_flow.md (R101), decision D4 (log entry 10): `RET` on a stack that is not empty; on an empty one it raises
`StackUnderflow`. -/
def Obligations.ReturnPopsAndAddsTwo : Prop :=
  ∀ s : State,
    (∀ h : 0 < s.SP.val,
      Completes .ret s (s.stack[s.SP.val - 1]'(by omega) + 2) [.stack]
        (fun t => t.SP.val = s.SP.val - 1 ∧ t.stack = s.stack)) ∧
    (s.SP.val = 0 → ∃ t, exec .ret s = .next t ∧ t.fault = true ∧
      t.faultCause = some .stackUnderflow ∧ t.faultPc = s.pc ∧ t.result = some .faulted ∧
      KeepsAllBut [.fault, .result] s t)

/-- R102: `JP NNN`. -/
def Obligations.JumpSetsPc : Prop :=
  ∀ (nnn : Addr) (s : State),
    Completes (.jp nnn) s (nnn.setWidth 16) [] (fun t => t.pc.toNat = nnn.toNat)

/-- 41_flow.md (R103), decision D4 (log entry 10): `CALL NNN` on a stack that is not full pushes its own
address; on a full one it raises `StackOverflow`. -/
def Obligations.CallPushesItsOwnAddress : Prop :=
  ∀ (nnn : Addr) (s : State),
    (∀ h : s.SP.val < 16,
      Completes (.call nnn) s (nnn.setWidth 16) [.stack]
        (fun t => t.SP.val = s.SP.val + 1 ∧ t.stack = s.stack.set s.SP.val s.pc h)) ∧
    (s.SP.val = 16 → ∃ t, exec (.call nnn) s = .next t ∧ t.fault = true ∧
      t.faultCause = some .stackOverflow ∧ t.faultPc = s.pc ∧ t.result = some .faulted ∧
      KeepsAllBut [.fault, .result] s t)

/-- A return after a call lands on the word after the call, with the stack pointer as before and the entries kept
(90_conflicts.md C8). -/
def Obligations.ReturnLandsAfterCall : Prop :=
  ∀ (nnn : Addr) (s t u : State), s.SP.val < 16 → exec (.call nnn) s = .next t → u.SP = t.SP →
    u.stack = t.stack → Completes .ret u (s.pc + 2) [.stack] (fun v => v.SP = s.SP ∧ v.stack = u.stack)

/-- R104, R105: the skips on a register and an immediate. -/
def Obligations.SkipOnImmediate : Prop :=
  ∀ (x : Reg) (nn : Byte) (s : State),
    Completes (.sei x nn) s (if (s.reg x).toNat = nn.toNat then s.pc + 4 else s.pc + 2) [] (fun _ => True) ∧
    Completes (.snei x nn) s (if (s.reg x).toNat = nn.toNat then s.pc + 2 else s.pc + 4) [] (fun _ => True)

/-- 41_flow.md (R106, R107): the skips on two registers; X = Y always skips for `SER` and never for `SNER`. -/
def Obligations.SkipOnRegisters : Prop :=
  ∀ (x y : Reg) (s : State),
    Completes (.ser x y) s (if (s.reg x).toNat = (s.reg y).toNat then s.pc + 4 else s.pc + 2) []
      (fun t => x = y → t.pc = s.pc + 4) ∧
    Completes (.sner x y) s (if (s.reg x).toNat = (s.reg y).toNat then s.pc + 2 else s.pc + 4) []
      (fun t => x = y → t.pc = s.pc + 2)

/-- 41_flow.md (R108), 91_not_in_source.md N9: `JPO NNN` adds `x[0]`; the sum is at most 0x10FE and is not
reduced to 12 bits. -/
def Obligations.JumpOffsetAddsRegisterZero : Prop :=
  ∀ (nnn : Addr) (s : State),
    Completes (.jpo nnn) s (BitVec.ofNat 16 (nnn.toNat + (s.reg 0).toNat)) []
      (fun t => t.pc.toNat = nnn.toNat + (s.reg 0).toNat ∧ t.pc.toNat ≤ 0x10FE)

/-! ## Registers, arithmetic and logic (42_alu.md) -/

/-- R120, R121: `LDB` and `ADDB`; neither writes `x[0xF]` but as the destination. -/
def Obligations.LoadAndAddImmediate : Prop :=
  ∀ (x : Reg) (nn : Byte) (s : State),
    Completes (.ldb x nn) s (s.pc + 2) [.regs] (fun t => t.reg x = nn ∧ KeepsRegsBut [x] s t) ∧
    Completes (.addb x nn) s (s.pc + 2) [.regs]
      (fun t => (t.reg x).toNat = ((s.reg x).toNat + nn.toNat) % 256 ∧ KeepsRegsBut [x] s t)

/-- 42_alu.md (`MOV`, `OR`, `AND`, `XOR`), decision D7 (log entry 12): bit by bit, and no flag. -/
def Obligations.MoveAndLogic : Prop :=
  ∀ (x y : Reg) (s : State),
    Completes (.mov x y) s (s.pc + 2) [.regs] (fun t => t.reg x = s.reg y ∧ KeepsRegsBut [x] s t) ∧
    Completes (.or x y) s (s.pc + 2) [.regs]
      (fun t => (∀ k, (t.reg x).getLsbD k = ((s.reg x).getLsbD k || (s.reg y).getLsbD k)) ∧
        KeepsRegsBut [x] s t) ∧
    Completes (.and x y) s (s.pc + 2) [.regs]
      (fun t => (∀ k, (t.reg x).getLsbD k = ((s.reg x).getLsbD k && (s.reg y).getLsbD k)) ∧
        KeepsRegsBut [x] s t) ∧
    Completes (.xor x y) s (s.pc + 2) [.regs]
      (fun t => (∀ k, (t.reg x).getLsbD k = ((s.reg x).getLsbD k ^^ (s.reg y).getLsbD k)) ∧
        KeepsRegsBut [x] s t)

/-- 42_alu.md (`ADD`), decision D5 (log entry 11): the carry goes to `x[0xF]` first, then `x[X]` gets the sum
of the registers as they now are, so with `x[0xF]` as an operand the sum takes the flag. -/
def Obligations.AddSetsCarryThenSum : Prop :=
  ∀ (x y : Reg) (s : State),
    Completes (.add x y) s (s.pc + 2) [.regs] (fun t =>
      let flag := if (s.reg x).toNat + (s.reg y).toNat > 255 then 1 else 0
      let a := if x = 0xF then flag else (s.reg x).toNat
      let b := if y = 0xF then flag else (s.reg y).toNat
      (t.reg x).toNat = (a + b) % 256 ∧ (x ≠ 0xF → (t.reg 0xF).toNat = flag) ∧
      KeepsRegsBut [x, 0xF] s t)

/-- 42_alu.md (`SUB`, `SUBN`), decision D5 (log entry 11) and the destination of `SUBN` (log entry 24): the
flag is 1 unless the subtrahend exceeds the minuend; then the difference of the registers as they now
are. -/
def Obligations.SubtractSetsNoBorrowThenDifference : Prop :=
  ∀ (x y : Reg) (s : State),
    Completes (.sub x y) s (s.pc + 2) [.regs] (fun t =>
      let flag := if (s.reg y).toNat > (s.reg x).toNat then 0 else 1
      let a := if x = 0xF then flag else (s.reg x).toNat
      let b := if y = 0xF then flag else (s.reg y).toNat
      (t.reg x).toNat = (a + 256 - b) % 256 ∧ (x ≠ 0xF → (t.reg 0xF).toNat = flag) ∧
      KeepsRegsBut [x, 0xF] s t) ∧
    Completes (.subn x y) s (s.pc + 2) [.regs] (fun t =>
      let flag := if (s.reg x).toNat > (s.reg y).toNat then 0 else 1
      let a := if x = 0xF then flag else (s.reg x).toNat
      let b := if y = 0xF then flag else (s.reg y).toNat
      (t.reg x).toNat = (b + 256 - a) % 256 ∧ (x ≠ 0xF → (t.reg 0xF).toNat = flag) ∧
      KeepsRegsBut [x, 0xF] s t)

/-- 42_alu.md (`SHR`, `SHL`), decisions D5 and D6 (log entries 3 and 11): for both values of `SHIFT_SRC`, the
bit shifted out goes to `x[0xF]` first, then `x[X]` gets the shift of the source as it now is. -/
def Obligations.ShiftSetsBitOutThenShift : Prop :=
  ∀ (x y : Reg) (s : State),
    let src := match s.shiftSrc with | .X => x | .Y => y
    Completes (.shr x y) s (s.pc + 2) [.regs] (fun t =>
      let flag := (s.reg src).toNat % 2
      let v := if src = 0xF then flag else (s.reg src).toNat
      (t.reg x).toNat = v / 2 ∧ (x ≠ 0xF → (t.reg 0xF).toNat = flag) ∧ KeepsRegsBut [x, 0xF] s t) ∧
    Completes (.shl x y) s (s.pc + 2) [.regs] (fun t =>
      let flag := (s.reg src).toNat / 128
      let v := if src = 0xF then flag else (s.reg src).toNat
      (t.reg x).toNat = 2 * v % 256 ∧ (x ≠ 0xF → (t.reg 0xF).toNat = flag) ∧ KeepsRegsBut [x, 0xF] s t)

/-- 42_alu.md (`RND`), decision D15 (log entry 2): the destination gets the drawn byte ANDed with the mask,
whatever the byte: the next one the host has ready, which is then used up, or the free value. -/
def Obligations.RandomAndMasksDrawnByte : Prop :=
  ∀ (x : Reg) (nn : Byte) (s : State),
    (∀ r rest, s.rndIn = r :: rest →
      Completes (.rnd x nn) s (s.pc + 2) [.regs, .random] (fun t =>
        t.reg x = r &&& nn ∧ t.rndIn = rest ∧ t.rndDraws = s.rndDraws ∧ KeepsRegsBut [x] s t)) ∧
    (s.rndIn = [] →
      Completes (.rnd x nn) s (s.pc + 2) [.regs, .random] (fun t =>
        t.reg x = Config.freeRnd s.rndDraws &&& nn ∧ t.rndIn = [] ∧ t.rndDraws = s.rndDraws + 1 ∧
        KeepsRegsBut [x] s t))

/-! ## Index register and memory (43_index_memory.md) -/

/-- 43_index_memory.md (`LDI`, `LDF`), decisions D18 and D13 (log entries 7 and 18). -/
def Obligations.IndexLoads : Prop :=
  ∀ (nnn : Addr) (x : Reg) (s : State),
    Completes (.ldi nnn) s (s.pc + 2) [.index] (fun t => t.I.toNat = nnn.toNat) ∧
    Completes (.ldf x) s (s.pc + 2) [.index] (fun t => t.I.toNat = 0x50 + 5 * (s.reg x).toNat)

/-- 43_index_memory.md (`ADDI`), decision D12 (log entry 17): the sum wraps at 65536, the flag is of the
unwrapped sum, both from the values at the start. -/
def Obligations.AddToIndexFlagsOverflow : Prop :=
  ∀ (x : Reg) (s : State),
    Completes (.addi x) s (s.pc + 2) [.regs, .index] (fun t =>
      t.I.toNat = (s.I.toNat + (s.reg x).toNat) % 65536 ∧
      (t.reg 0xF).toNat = (if s.I.toNat + (s.reg x).toNat > 0xFFF then 1 else 0) ∧
      KeepsRegsBut [0xF] s t)

/-- 43_index_memory.md (R143), decisions D2 and D25 (log entry 8): `BCD` stores hundreds, tens and ones at `I`,
`I + 1`, `I + 2`, each address reduced on its own, and leaves every other byte. -/
def Obligations.BcdStoresDigits : Prop :=
  ∀ (x : Reg) (s : State),
    Completes (.bcd x) s (s.pc + 2) [.memory] (fun t =>
      (t.loadByte s.I).toNat = (s.reg x).toNat / 100 ∧
      (t.loadByte (s.I + 1)).toNat = (s.reg x).toNat / 10 % 10 ∧
      (t.loadByte (s.I + 2)).toNat = (s.reg x).toNat % 10 ∧
      KeepsBytesBut [memIndex s.I, memIndex (s.I + 1), memIndex (s.I + 2)] s t)

/-- 43_index_memory.md (R145), decisions D2 and D25 (log entry 8): `DUMP` copies `x[0]` to `x[X]` to `I` to `I +
X` and leaves every other byte and `I`. -/
def Obligations.DumpStoresRegisters : Prop :=
  ∀ (x : Reg) (s : State),
    Completes (.dump x) s (s.pc + 2) [.memory] (fun t =>
      (∀ k, k ≤ x.toNat → t.loadByte (s.I + BitVec.ofNat 16 k) = s.reg (BitVec.ofNat 4 k)) ∧
      KeepsBytesBut ((List.range (x.toNat + 1)).map fun k => memIndex (s.I + BitVec.ofNat 16 k)) s t)

/-- 43_index_memory.md (R146), decision D2 (log entry 8): `LOAD` copies `I` to `I + X` to `x[0]` to `x[X]`;
registers above X, `I` and memory stay. -/
def Obligations.LoadFillsRegisters : Prop :=
  ∀ (x : Reg) (s : State),
    Completes (.load x) s (s.pc + 2) [.regs] (fun t =>
      (∀ r : Reg, r.toNat ≤ x.toNat → t.reg r = s.loadByte (s.I + r.setWidth 16)) ∧
      (∀ r : Reg, x.toNat < r.toNat → t.reg r = s.reg r))

/-- A dump and a load of the same registers through the same `I` restore them (43_index_memory.md; addresses are
reduced modulo 4096, decision D2, log entry 8). -/
def Obligations.LoadAfterDumpRestoresRegisters : Prop :=
  ∀ (x : Reg) (s t u : State), exec (.dump x) s = .next t → u.mem = t.mem → u.font = t.font →
    u.I = t.I →
    Completes (.load x) u (u.pc + 2) [.regs] (fun v =>
      ∀ r : Reg, r.toNat ≤ x.toNat → v.reg r = s.reg r)

/-! ## Display (44_display.md) -/

/-- R150: `CLS` zeroes all 2048 pixels and sets `redraw`, whatever they were. -/
def Obligations.ClearScreenZeroesAll : Prop :=
  ∀ s : State,
    Completes .cls s (s.pc + 2) [.screen, .redraw] (fun t =>
      (∀ r c, t.FB.pixel r c = false) ∧ t.redraw = true)

/-- 44_display.md (`DRW` and its corner case (e)), decision D11 and bit 7 leftmost (log entry 16): a pixel
hit k times, with clamping, is toggled when k is odd; the flag says that a hit pixel was set, or was hit
twice; `redraw` is set. Sprite addresses are reduced modulo 4096, decision D2 (log entry 8). -/
def Obligations.DrawTogglesHitPixels : Prop :=
  ∀ (x y : Reg) (n : Nibble) (s : State),
    Completes (.drw x y n) s (s.pc + 2) [.regs, .screen, .redraw] (fun t =>
      (∀ r c, t.FB.pixel r c = (s.FB.pixel r c ^^ (drwHits s x y n r c % 2 == 1))) ∧
      (t.reg 0xF = 0 ∨ t.reg 0xF = 1) ∧
      (t.reg 0xF = 1 ↔ ∃ r c, (s.FB.pixel r c = true ∧ 1 ≤ drwHits s x y n r c) ∨
        2 ≤ drwHits s x y n r c) ∧
      t.redraw = true ∧ KeepsRegsBut [0xF] s t)

/-- 44_display.md (first property of `DRW`): drawing the same sprite twice at the same place restores every
pixel, and the flag is that of the second pass alone; decisions D11 and D2 (log entries 16 and 8). -/
def Obligations.DoubleDrawRestoresScreen : Prop :=
  ∀ (x y : Reg) (n : Nibble) (s t u : State), x ≠ 0xF → y ≠ 0xF →
    exec (.drw x y n) s = .next t → exec (.drw x y n) t = .next u →
    u.FB = s.FB ∧
    (u.reg 0xF = 1 ↔ ∃ r c, (t.FB.pixel r c = true ∧ 1 ≤ drwHits s x y n r c) ∨
      2 ≤ drwHits s x y n r c)

/-! ## Keys and timers (45_keys_timers.md) -/

/-- 45_keys_timers.md (`SKP`, `SKNP`), decision D8 (log entry 13): the low four bits of `x[X]` select the
key. -/
def Obligations.SkipOnKey : Prop :=
  ∀ (x : Reg) (s : State),
    Completes (.skp x) s
      (if s.key.getLsbD ((s.reg x).toNat % 16) = true then s.pc + 4 else s.pc + 2) [] (fun _ => True) ∧
    Completes (.sknp x) s
      (if s.key.getLsbD ((s.reg x).toNat % 16) = false then s.pc + 4 else s.pc + 2) [] (fun _ => True)

/-- R162: `WKEY` with a key held takes the highest and advances; with none held the cycle is `Waiting`,
nothing else changes and the timers do not tick. -/
def Obligations.WaitKeyTakesHighestOrWaits : Prop :=
  ∀ (x : Reg) (s : State),
    (∀ k, k < 16 → s.key.getLsbD k = true → (∀ j, k < j → j < 16 → s.key.getLsbD j = false) →
      Completes (.wkey x) s (s.pc + 2) [.regs]
        (fun t => (t.reg x).toNat = k ∧ KeepsRegsBut [x] s t)) ∧
    ((∀ k, k < 16 → s.key.getLsbD k = false) →
      ∃ t, exec (.wkey x) s = .next t ∧ t.result = some .waiting ∧ KeepsAllBut [.result] s t ∧
        t.endCycle = t)

/-- R163, R164: `GDT` reads the value before this cycle's tick; `SDT` writes the value this cycle's tick then
decrements. -/
def Obligations.DelayTimerReadAndSet : Prop :=
  ∀ (x : Reg) (s : State),
    Completes (.gdt x) s (s.pc + 2) [.regs] (fun t =>
      t.reg x = s.DT ∧ KeepsRegsBut [x] s t ∧ t.endCycle.DT.toNat = s.DT.toNat - 1) ∧
    Completes (.sdt x) s (s.pc + 2) [.delay] (fun t =>
      t.DT = s.reg x ∧ t.endCycle.DT.toNat = (s.reg x).toNat - 1)

/-- 45_keys_timers.md (`SST`): the value is set, this cycle's tick decrements it and beeps if it is 1. -/
def Obligations.SoundTimerSet : Prop :=
  ∀ (x : Reg) (s : State),
    Completes (.sst x) s (s.pc + 2) [.sound] (fun t =>
      t.ST = s.reg x ∧ t.endCycle.ST.toNat = (s.reg x).toNat - 1 ∧
      (s.beep = false → (t.endCycle.beep = true ↔ (s.reg x).toNat = 1)))
end

