-- ==== Sys2Proof/Laws/State.lean ====
section
/-! SUPPORT. What each update of the state leaves in each field: one lemma per field per update. -/

namespace Sys2Proof.Machine

/-! ### setReg -/

@[simp] theorem State.setReg_mem (s : State) (r : Reg) (v : Byte) :
    (s.setReg r v).mem = s.mem := rfl
@[simp] theorem State.setReg_x (s : State) (r : Reg) (v : Byte) :
    (s.setReg r v).x = s.x.set r.toNat v r.isLt := rfl
@[simp] theorem State.setReg_I (s : State) (r : Reg) (v : Byte) : (s.setReg r v).I = s.I := rfl
@[simp] theorem State.setReg_pc (s : State) (r : Reg) (v : Byte) : (s.setReg r v).pc = s.pc := rfl
@[simp] theorem State.setReg_stack (s : State) (r : Reg) (v : Byte) :
    (s.setReg r v).stack = s.stack := rfl
@[simp] theorem State.setReg_SP (s : State) (r : Reg) (v : Byte) : (s.setReg r v).SP = s.SP := rfl
@[simp] theorem State.setReg_DT (s : State) (r : Reg) (v : Byte) : (s.setReg r v).DT = s.DT := rfl
@[simp] theorem State.setReg_ST (s : State) (r : Reg) (v : Byte) : (s.setReg r v).ST = s.ST := rfl
@[simp] theorem State.setReg_FB (s : State) (r : Reg) (v : Byte) : (s.setReg r v).FB = s.FB := rfl
@[simp] theorem State.setReg_redraw (s : State) (r : Reg) (v : Byte) :
    (s.setReg r v).redraw = s.redraw := rfl
@[simp] theorem State.setReg_fault (s : State) (r : Reg) (v : Byte) :
    (s.setReg r v).fault = s.fault := rfl
@[simp] theorem State.setReg_faultCause (s : State) (r : Reg) (v : Byte) :
    (s.setReg r v).faultCause = s.faultCause := rfl
@[simp] theorem State.setReg_faultPc (s : State) (r : Reg) (v : Byte) :
    (s.setReg r v).faultPc = s.faultPc := rfl
@[simp] theorem State.setReg_key (s : State) (r : Reg) (v : Byte) :
    (s.setReg r v).key = s.key := rfl
@[simp] theorem State.setReg_keyIn (s : State) (r : Reg) (v : Byte) :
    (s.setReg r v).keyIn = s.keyIn := rfl
@[simp] theorem State.setReg_rndIn (s : State) (r : Reg) (v : Byte) :
    (s.setReg r v).rndIn = s.rndIn := rfl
@[simp] theorem State.setReg_rndDraws (s : State) (r : Reg) (v : Byte) :
    (s.setReg r v).rndDraws = s.rndDraws := rfl
@[simp] theorem State.setReg_font (s : State) (r : Reg) (v : Byte) :
    (s.setReg r v).font = s.font := rfl
@[simp] theorem State.setReg_shiftSrc (s : State) (r : Reg) (v : Byte) :
    (s.setReg r v).shiftSrc = s.shiftSrc := rfl
@[simp] theorem State.setReg_result (s : State) (r : Reg) (v : Byte) :
    (s.setReg r v).result = s.result := rfl
@[simp] theorem State.setReg_beep (s : State) (r : Reg) (v : Byte) :
    (s.setReg r v).beep = s.beep := rfl
@[simp] theorem State.setReg_unknown (s : State) (r : Reg) (v : Byte) :
    (s.setReg r v).unknown = s.unknown := rfl

/-! ### storeByte -/

@[simp] theorem State.storeByte_mem (s : State) (a : Word) (v : Byte) :
    (s.storeByte a v).mem = Memory.write s.font (memIndex a) v s.mem := rfl
@[simp] theorem State.storeByte_x (s : State) (a : Word) (v : Byte) :
    (s.storeByte a v).x = s.x := rfl
@[simp] theorem State.storeByte_I (s : State) (a : Word) (v : Byte) :
    (s.storeByte a v).I = s.I := rfl
@[simp] theorem State.storeByte_pc (s : State) (a : Word) (v : Byte) :
    (s.storeByte a v).pc = s.pc := rfl
@[simp] theorem State.storeByte_stack (s : State) (a : Word) (v : Byte) :
    (s.storeByte a v).stack = s.stack := rfl
@[simp] theorem State.storeByte_SP (s : State) (a : Word) (v : Byte) :
    (s.storeByte a v).SP = s.SP := rfl
@[simp] theorem State.storeByte_DT (s : State) (a : Word) (v : Byte) :
    (s.storeByte a v).DT = s.DT := rfl
@[simp] theorem State.storeByte_ST (s : State) (a : Word) (v : Byte) :
    (s.storeByte a v).ST = s.ST := rfl
@[simp] theorem State.storeByte_FB (s : State) (a : Word) (v : Byte) :
    (s.storeByte a v).FB = s.FB := rfl
@[simp] theorem State.storeByte_redraw (s : State) (a : Word) (v : Byte) :
    (s.storeByte a v).redraw = s.redraw := rfl
@[simp] theorem State.storeByte_fault (s : State) (a : Word) (v : Byte) :
    (s.storeByte a v).fault = s.fault := rfl
@[simp] theorem State.storeByte_faultCause (s : State) (a : Word) (v : Byte) :
    (s.storeByte a v).faultCause = s.faultCause := rfl
@[simp] theorem State.storeByte_faultPc (s : State) (a : Word) (v : Byte) :
    (s.storeByte a v).faultPc = s.faultPc := rfl
@[simp] theorem State.storeByte_key (s : State) (a : Word) (v : Byte) :
    (s.storeByte a v).key = s.key := rfl
@[simp] theorem State.storeByte_keyIn (s : State) (a : Word) (v : Byte) :
    (s.storeByte a v).keyIn = s.keyIn := rfl
@[simp] theorem State.storeByte_rndIn (s : State) (a : Word) (v : Byte) :
    (s.storeByte a v).rndIn = s.rndIn := rfl
@[simp] theorem State.storeByte_rndDraws (s : State) (a : Word) (v : Byte) :
    (s.storeByte a v).rndDraws = s.rndDraws := rfl
@[simp] theorem State.storeByte_font (s : State) (a : Word) (v : Byte) :
    (s.storeByte a v).font = s.font := rfl
@[simp] theorem State.storeByte_shiftSrc (s : State) (a : Word) (v : Byte) :
    (s.storeByte a v).shiftSrc = s.shiftSrc := rfl
@[simp] theorem State.storeByte_result (s : State) (a : Word) (v : Byte) :
    (s.storeByte a v).result = s.result := rfl
@[simp] theorem State.storeByte_beep (s : State) (a : Word) (v : Byte) :
    (s.storeByte a v).beep = s.beep := rfl
@[simp] theorem State.storeByte_unknown (s : State) (a : Word) (v : Byte) :
    (s.storeByte a v).unknown = s.unknown := rfl

/-! ### setI -/

@[simp] theorem State.setI_mem (s : State) (v : Word) : (s.setI v).mem = s.mem := rfl
@[simp] theorem State.setI_x (s : State) (v : Word) : (s.setI v).x = s.x := rfl
@[simp] theorem State.setI_I (s : State) (v : Word) : (s.setI v).I = v := rfl
@[simp] theorem State.setI_pc (s : State) (v : Word) : (s.setI v).pc = s.pc := rfl
@[simp] theorem State.setI_stack (s : State) (v : Word) : (s.setI v).stack = s.stack := rfl
@[simp] theorem State.setI_SP (s : State) (v : Word) : (s.setI v).SP = s.SP := rfl
@[simp] theorem State.setI_DT (s : State) (v : Word) : (s.setI v).DT = s.DT := rfl
@[simp] theorem State.setI_ST (s : State) (v : Word) : (s.setI v).ST = s.ST := rfl
@[simp] theorem State.setI_FB (s : State) (v : Word) : (s.setI v).FB = s.FB := rfl
@[simp] theorem State.setI_redraw (s : State) (v : Word) : (s.setI v).redraw = s.redraw := rfl
@[simp] theorem State.setI_fault (s : State) (v : Word) : (s.setI v).fault = s.fault := rfl
@[simp] theorem State.setI_faultCause (s : State) (v : Word) :
    (s.setI v).faultCause = s.faultCause := rfl
@[simp] theorem State.setI_faultPc (s : State) (v : Word) : (s.setI v).faultPc = s.faultPc := rfl
@[simp] theorem State.setI_key (s : State) (v : Word) : (s.setI v).key = s.key := rfl
@[simp] theorem State.setI_keyIn (s : State) (v : Word) : (s.setI v).keyIn = s.keyIn := rfl
@[simp] theorem State.setI_rndIn (s : State) (v : Word) : (s.setI v).rndIn = s.rndIn := rfl
@[simp] theorem State.setI_rndDraws (s : State) (v : Word) : (s.setI v).rndDraws = s.rndDraws := rfl
@[simp] theorem State.setI_font (s : State) (v : Word) : (s.setI v).font = s.font := rfl
@[simp] theorem State.setI_shiftSrc (s : State) (v : Word) : (s.setI v).shiftSrc = s.shiftSrc := rfl
@[simp] theorem State.setI_result (s : State) (v : Word) : (s.setI v).result = s.result := rfl
@[simp] theorem State.setI_beep (s : State) (v : Word) : (s.setI v).beep = s.beep := rfl
@[simp] theorem State.setI_unknown (s : State) (v : Word) : (s.setI v).unknown = s.unknown := rfl

/-! ### setDT -/

@[simp] theorem State.setDT_mem (s : State) (v : Byte) : (s.setDT v).mem = s.mem := rfl
@[simp] theorem State.setDT_x (s : State) (v : Byte) : (s.setDT v).x = s.x := rfl
@[simp] theorem State.setDT_I (s : State) (v : Byte) : (s.setDT v).I = s.I := rfl
@[simp] theorem State.setDT_pc (s : State) (v : Byte) : (s.setDT v).pc = s.pc := rfl
@[simp] theorem State.setDT_stack (s : State) (v : Byte) : (s.setDT v).stack = s.stack := rfl
@[simp] theorem State.setDT_SP (s : State) (v : Byte) : (s.setDT v).SP = s.SP := rfl
@[simp] theorem State.setDT_DT (s : State) (v : Byte) : (s.setDT v).DT = v := rfl
@[simp] theorem State.setDT_ST (s : State) (v : Byte) : (s.setDT v).ST = s.ST := rfl
@[simp] theorem State.setDT_FB (s : State) (v : Byte) : (s.setDT v).FB = s.FB := rfl
@[simp] theorem State.setDT_redraw (s : State) (v : Byte) : (s.setDT v).redraw = s.redraw := rfl
@[simp] theorem State.setDT_fault (s : State) (v : Byte) : (s.setDT v).fault = s.fault := rfl
@[simp] theorem State.setDT_faultCause (s : State) (v : Byte) :
    (s.setDT v).faultCause = s.faultCause := rfl
@[simp] theorem State.setDT_faultPc (s : State) (v : Byte) : (s.setDT v).faultPc = s.faultPc := rfl
@[simp] theorem State.setDT_key (s : State) (v : Byte) : (s.setDT v).key = s.key := rfl
@[simp] theorem State.setDT_keyIn (s : State) (v : Byte) : (s.setDT v).keyIn = s.keyIn := rfl
@[simp] theorem State.setDT_rndIn (s : State) (v : Byte) : (s.setDT v).rndIn = s.rndIn := rfl
@[simp] theorem State.setDT_rndDraws (s : State) (v : Byte) :
    (s.setDT v).rndDraws = s.rndDraws := rfl
@[simp] theorem State.setDT_font (s : State) (v : Byte) : (s.setDT v).font = s.font := rfl
@[simp] theorem State.setDT_shiftSrc (s : State) (v : Byte) :
    (s.setDT v).shiftSrc = s.shiftSrc := rfl
@[simp] theorem State.setDT_result (s : State) (v : Byte) : (s.setDT v).result = s.result := rfl
@[simp] theorem State.setDT_beep (s : State) (v : Byte) : (s.setDT v).beep = s.beep := rfl
@[simp] theorem State.setDT_unknown (s : State) (v : Byte) : (s.setDT v).unknown = s.unknown := rfl

/-! ### setST -/

@[simp] theorem State.setST_mem (s : State) (v : Byte) : (s.setST v).mem = s.mem := rfl
@[simp] theorem State.setST_x (s : State) (v : Byte) : (s.setST v).x = s.x := rfl
@[simp] theorem State.setST_I (s : State) (v : Byte) : (s.setST v).I = s.I := rfl
@[simp] theorem State.setST_pc (s : State) (v : Byte) : (s.setST v).pc = s.pc := rfl
@[simp] theorem State.setST_stack (s : State) (v : Byte) : (s.setST v).stack = s.stack := rfl
@[simp] theorem State.setST_SP (s : State) (v : Byte) : (s.setST v).SP = s.SP := rfl
@[simp] theorem State.setST_DT (s : State) (v : Byte) : (s.setST v).DT = s.DT := rfl
@[simp] theorem State.setST_ST (s : State) (v : Byte) : (s.setST v).ST = v := rfl
@[simp] theorem State.setST_FB (s : State) (v : Byte) : (s.setST v).FB = s.FB := rfl
@[simp] theorem State.setST_redraw (s : State) (v : Byte) : (s.setST v).redraw = s.redraw := rfl
@[simp] theorem State.setST_fault (s : State) (v : Byte) : (s.setST v).fault = s.fault := rfl
@[simp] theorem State.setST_faultCause (s : State) (v : Byte) :
    (s.setST v).faultCause = s.faultCause := rfl
@[simp] theorem State.setST_faultPc (s : State) (v : Byte) : (s.setST v).faultPc = s.faultPc := rfl
@[simp] theorem State.setST_key (s : State) (v : Byte) : (s.setST v).key = s.key := rfl
@[simp] theorem State.setST_keyIn (s : State) (v : Byte) : (s.setST v).keyIn = s.keyIn := rfl
@[simp] theorem State.setST_rndIn (s : State) (v : Byte) : (s.setST v).rndIn = s.rndIn := rfl
@[simp] theorem State.setST_rndDraws (s : State) (v : Byte) :
    (s.setST v).rndDraws = s.rndDraws := rfl
@[simp] theorem State.setST_font (s : State) (v : Byte) : (s.setST v).font = s.font := rfl
@[simp] theorem State.setST_shiftSrc (s : State) (v : Byte) :
    (s.setST v).shiftSrc = s.shiftSrc := rfl
@[simp] theorem State.setST_result (s : State) (v : Byte) : (s.setST v).result = s.result := rfl
@[simp] theorem State.setST_beep (s : State) (v : Byte) : (s.setST v).beep = s.beep := rfl
@[simp] theorem State.setST_unknown (s : State) (v : Byte) : (s.setST v).unknown = s.unknown := rfl

/-! ### jump -/

@[simp] theorem State.jump_mem (s : State) (a : Word) : (s.jump a).mem = s.mem := rfl
@[simp] theorem State.jump_x (s : State) (a : Word) : (s.jump a).x = s.x := rfl
@[simp] theorem State.jump_I (s : State) (a : Word) : (s.jump a).I = s.I := rfl
@[simp] theorem State.jump_pc (s : State) (a : Word) : (s.jump a).pc = a := rfl
@[simp] theorem State.jump_stack (s : State) (a : Word) : (s.jump a).stack = s.stack := rfl
@[simp] theorem State.jump_SP (s : State) (a : Word) : (s.jump a).SP = s.SP := rfl
@[simp] theorem State.jump_DT (s : State) (a : Word) : (s.jump a).DT = s.DT := rfl
@[simp] theorem State.jump_ST (s : State) (a : Word) : (s.jump a).ST = s.ST := rfl
@[simp] theorem State.jump_FB (s : State) (a : Word) : (s.jump a).FB = s.FB := rfl
@[simp] theorem State.jump_redraw (s : State) (a : Word) : (s.jump a).redraw = s.redraw := rfl
@[simp] theorem State.jump_fault (s : State) (a : Word) : (s.jump a).fault = s.fault := rfl
@[simp] theorem State.jump_faultCause (s : State) (a : Word) :
    (s.jump a).faultCause = s.faultCause := rfl
@[simp] theorem State.jump_faultPc (s : State) (a : Word) : (s.jump a).faultPc = s.faultPc := rfl
@[simp] theorem State.jump_key (s : State) (a : Word) : (s.jump a).key = s.key := rfl
@[simp] theorem State.jump_keyIn (s : State) (a : Word) : (s.jump a).keyIn = s.keyIn := rfl
@[simp] theorem State.jump_rndIn (s : State) (a : Word) : (s.jump a).rndIn = s.rndIn := rfl
@[simp] theorem State.jump_rndDraws (s : State) (a : Word) : (s.jump a).rndDraws = s.rndDraws := rfl
@[simp] theorem State.jump_font (s : State) (a : Word) : (s.jump a).font = s.font := rfl
@[simp] theorem State.jump_shiftSrc (s : State) (a : Word) : (s.jump a).shiftSrc = s.shiftSrc := rfl
@[simp] theorem State.jump_result (s : State) (a : Word) : (s.jump a).result = s.result := rfl
@[simp] theorem State.jump_beep (s : State) (a : Word) : (s.jump a).beep = s.beep := rfl
@[simp] theorem State.jump_unknown (s : State) (a : Word) : (s.jump a).unknown = s.unknown := rfl

/-! ### advance -/

@[simp] theorem State.advance_mem (s : State) : (s.advance).mem = s.mem := rfl
@[simp] theorem State.advance_x (s : State) : (s.advance).x = s.x := rfl
@[simp] theorem State.advance_I (s : State) : (s.advance).I = s.I := rfl
@[simp] theorem State.advance_pc (s : State) : (s.advance).pc = s.pc + 2 := rfl
@[simp] theorem State.advance_stack (s : State) : (s.advance).stack = s.stack := rfl
@[simp] theorem State.advance_SP (s : State) : (s.advance).SP = s.SP := rfl
@[simp] theorem State.advance_DT (s : State) : (s.advance).DT = s.DT := rfl
@[simp] theorem State.advance_ST (s : State) : (s.advance).ST = s.ST := rfl
@[simp] theorem State.advance_FB (s : State) : (s.advance).FB = s.FB := rfl
@[simp] theorem State.advance_redraw (s : State) : (s.advance).redraw = s.redraw := rfl
@[simp] theorem State.advance_fault (s : State) : (s.advance).fault = s.fault := rfl
@[simp] theorem State.advance_faultCause (s : State) : (s.advance).faultCause = s.faultCause := rfl
@[simp] theorem State.advance_faultPc (s : State) : (s.advance).faultPc = s.faultPc := rfl
@[simp] theorem State.advance_key (s : State) : (s.advance).key = s.key := rfl
@[simp] theorem State.advance_keyIn (s : State) : (s.advance).keyIn = s.keyIn := rfl
@[simp] theorem State.advance_rndIn (s : State) : (s.advance).rndIn = s.rndIn := rfl
@[simp] theorem State.advance_rndDraws (s : State) : (s.advance).rndDraws = s.rndDraws := rfl
@[simp] theorem State.advance_font (s : State) : (s.advance).font = s.font := rfl
@[simp] theorem State.advance_shiftSrc (s : State) : (s.advance).shiftSrc = s.shiftSrc := rfl
@[simp] theorem State.advance_result (s : State) : (s.advance).result = s.result := rfl
@[simp] theorem State.advance_beep (s : State) : (s.advance).beep = s.beep := rfl
@[simp] theorem State.advance_unknown (s : State) : (s.advance).unknown = s.unknown := rfl

/-! ### skipIf -/

@[simp] theorem State.skipIf_mem (s : State) (c : Bool) : (s.skipIf c).mem = s.mem := rfl
@[simp] theorem State.skipIf_x (s : State) (c : Bool) : (s.skipIf c).x = s.x := rfl
@[simp] theorem State.skipIf_I (s : State) (c : Bool) : (s.skipIf c).I = s.I := rfl
@[simp] theorem State.skipIf_pc (s : State) (c : Bool) :
    (s.skipIf c).pc = if c then s.pc + 4 else s.pc + 2 := rfl
@[simp] theorem State.skipIf_stack (s : State) (c : Bool) : (s.skipIf c).stack = s.stack := rfl
@[simp] theorem State.skipIf_SP (s : State) (c : Bool) : (s.skipIf c).SP = s.SP := rfl
@[simp] theorem State.skipIf_DT (s : State) (c : Bool) : (s.skipIf c).DT = s.DT := rfl
@[simp] theorem State.skipIf_ST (s : State) (c : Bool) : (s.skipIf c).ST = s.ST := rfl
@[simp] theorem State.skipIf_FB (s : State) (c : Bool) : (s.skipIf c).FB = s.FB := rfl
@[simp] theorem State.skipIf_redraw (s : State) (c : Bool) : (s.skipIf c).redraw = s.redraw := rfl
@[simp] theorem State.skipIf_fault (s : State) (c : Bool) : (s.skipIf c).fault = s.fault := rfl
@[simp] theorem State.skipIf_faultCause (s : State) (c : Bool) :
    (s.skipIf c).faultCause = s.faultCause := rfl
@[simp] theorem State.skipIf_faultPc (s : State) (c : Bool) :
    (s.skipIf c).faultPc = s.faultPc := rfl
@[simp] theorem State.skipIf_key (s : State) (c : Bool) : (s.skipIf c).key = s.key := rfl
@[simp] theorem State.skipIf_keyIn (s : State) (c : Bool) : (s.skipIf c).keyIn = s.keyIn := rfl
@[simp] theorem State.skipIf_rndIn (s : State) (c : Bool) : (s.skipIf c).rndIn = s.rndIn := rfl
@[simp] theorem State.skipIf_rndDraws (s : State) (c : Bool) :
    (s.skipIf c).rndDraws = s.rndDraws := rfl
@[simp] theorem State.skipIf_font (s : State) (c : Bool) : (s.skipIf c).font = s.font := rfl
@[simp] theorem State.skipIf_shiftSrc (s : State) (c : Bool) :
    (s.skipIf c).shiftSrc = s.shiftSrc := rfl
@[simp] theorem State.skipIf_result (s : State) (c : Bool) : (s.skipIf c).result = s.result := rfl
@[simp] theorem State.skipIf_beep (s : State) (c : Bool) : (s.skipIf c).beep = s.beep := rfl
@[simp] theorem State.skipIf_unknown (s : State) (c : Bool) :
    (s.skipIf c).unknown = s.unknown := rfl

/-! ### display -/

@[simp] theorem State.display_mem (s : State) (fb : Framebuffer) : (s.display fb).mem = s.mem := rfl
@[simp] theorem State.display_x (s : State) (fb : Framebuffer) : (s.display fb).x = s.x := rfl
@[simp] theorem State.display_I (s : State) (fb : Framebuffer) : (s.display fb).I = s.I := rfl
@[simp] theorem State.display_pc (s : State) (fb : Framebuffer) : (s.display fb).pc = s.pc := rfl
@[simp] theorem State.display_stack (s : State) (fb : Framebuffer) :
    (s.display fb).stack = s.stack := rfl
@[simp] theorem State.display_SP (s : State) (fb : Framebuffer) : (s.display fb).SP = s.SP := rfl
@[simp] theorem State.display_DT (s : State) (fb : Framebuffer) : (s.display fb).DT = s.DT := rfl
@[simp] theorem State.display_ST (s : State) (fb : Framebuffer) : (s.display fb).ST = s.ST := rfl
@[simp] theorem State.display_FB (s : State) (fb : Framebuffer) : (s.display fb).FB = fb := rfl
@[simp] theorem State.display_redraw (s : State) (fb : Framebuffer) :
    (s.display fb).redraw = true := rfl
@[simp] theorem State.display_fault (s : State) (fb : Framebuffer) :
    (s.display fb).fault = s.fault := rfl
@[simp] theorem State.display_faultCause (s : State) (fb : Framebuffer) :
    (s.display fb).faultCause = s.faultCause := rfl
@[simp] theorem State.display_faultPc (s : State) (fb : Framebuffer) :
    (s.display fb).faultPc = s.faultPc := rfl
@[simp] theorem State.display_key (s : State) (fb : Framebuffer) : (s.display fb).key = s.key := rfl
@[simp] theorem State.display_keyIn (s : State) (fb : Framebuffer) :
    (s.display fb).keyIn = s.keyIn := rfl
@[simp] theorem State.display_rndIn (s : State) (fb : Framebuffer) :
    (s.display fb).rndIn = s.rndIn := rfl
@[simp] theorem State.display_rndDraws (s : State) (fb : Framebuffer) :
    (s.display fb).rndDraws = s.rndDraws := rfl
@[simp] theorem State.display_font (s : State) (fb : Framebuffer) :
    (s.display fb).font = s.font := rfl
@[simp] theorem State.display_shiftSrc (s : State) (fb : Framebuffer) :
    (s.display fb).shiftSrc = s.shiftSrc := rfl
@[simp] theorem State.display_result (s : State) (fb : Framebuffer) :
    (s.display fb).result = s.result := rfl
@[simp] theorem State.display_beep (s : State) (fb : Framebuffer) :
    (s.display fb).beep = s.beep := rfl
@[simp] theorem State.display_unknown (s : State) (fb : Framebuffer) :
    (s.display fb).unknown = s.unknown := rfl

/-! ### beginCycle -/

@[simp] theorem State.beginCycle_mem (s : State) : (s.beginCycle).mem = s.mem := rfl
@[simp] theorem State.beginCycle_x (s : State) : (s.beginCycle).x = s.x := rfl
@[simp] theorem State.beginCycle_I (s : State) : (s.beginCycle).I = s.I := rfl
@[simp] theorem State.beginCycle_pc (s : State) : (s.beginCycle).pc = s.pc := rfl
@[simp] theorem State.beginCycle_stack (s : State) : (s.beginCycle).stack = s.stack := rfl
@[simp] theorem State.beginCycle_SP (s : State) : (s.beginCycle).SP = s.SP := rfl
@[simp] theorem State.beginCycle_DT (s : State) : (s.beginCycle).DT = s.DT := rfl
@[simp] theorem State.beginCycle_ST (s : State) : (s.beginCycle).ST = s.ST := rfl
@[simp] theorem State.beginCycle_FB (s : State) : (s.beginCycle).FB = s.FB := rfl
@[simp] theorem State.beginCycle_redraw (s : State) : (s.beginCycle).redraw = s.redraw := rfl
@[simp] theorem State.beginCycle_fault (s : State) : (s.beginCycle).fault = s.fault := rfl
@[simp] theorem State.beginCycle_faultCause (s : State) :
    (s.beginCycle).faultCause = s.faultCause := rfl
@[simp] theorem State.beginCycle_faultPc (s : State) : (s.beginCycle).faultPc = s.faultPc := rfl
@[simp] theorem State.beginCycle_key (s : State) : (s.beginCycle).key = s.keyIn.headD s.key := rfl
@[simp] theorem State.beginCycle_keyIn (s : State) : (s.beginCycle).keyIn = s.keyIn.tail := rfl
@[simp] theorem State.beginCycle_rndIn (s : State) : (s.beginCycle).rndIn = s.rndIn := rfl
@[simp] theorem State.beginCycle_rndDraws (s : State) : (s.beginCycle).rndDraws = s.rndDraws := rfl
@[simp] theorem State.beginCycle_font (s : State) : (s.beginCycle).font = s.font := rfl
@[simp] theorem State.beginCycle_shiftSrc (s : State) : (s.beginCycle).shiftSrc = s.shiftSrc := rfl
@[simp] theorem State.beginCycle_result (s : State) : (s.beginCycle).result = none := rfl
@[simp] theorem State.beginCycle_beep (s : State) : (s.beginCycle).beep = false := rfl
@[simp] theorem State.beginCycle_unknown (s : State) : (s.beginCycle).unknown = none := rfl

/-! ### halt -/

@[simp] theorem State.halt_mem (s : State) : (s.halt).mem = s.mem := rfl
@[simp] theorem State.halt_x (s : State) : (s.halt).x = s.x := rfl
@[simp] theorem State.halt_I (s : State) : (s.halt).I = s.I := rfl
@[simp] theorem State.halt_pc (s : State) : (s.halt).pc = s.pc := rfl
@[simp] theorem State.halt_stack (s : State) : (s.halt).stack = s.stack := rfl
@[simp] theorem State.halt_SP (s : State) : (s.halt).SP = s.SP := rfl
@[simp] theorem State.halt_DT (s : State) : (s.halt).DT = s.DT := rfl
@[simp] theorem State.halt_ST (s : State) : (s.halt).ST = s.ST := rfl
@[simp] theorem State.halt_FB (s : State) : (s.halt).FB = s.FB := rfl
@[simp] theorem State.halt_redraw (s : State) : (s.halt).redraw = s.redraw := rfl
@[simp] theorem State.halt_fault (s : State) : (s.halt).fault = s.fault := rfl
@[simp] theorem State.halt_faultCause (s : State) : (s.halt).faultCause = s.faultCause := rfl
@[simp] theorem State.halt_faultPc (s : State) : (s.halt).faultPc = s.faultPc := rfl
@[simp] theorem State.halt_key (s : State) : (s.halt).key = s.key := rfl
@[simp] theorem State.halt_keyIn (s : State) : (s.halt).keyIn = s.keyIn := rfl
@[simp] theorem State.halt_rndIn (s : State) : (s.halt).rndIn = s.rndIn := rfl
@[simp] theorem State.halt_rndDraws (s : State) : (s.halt).rndDraws = s.rndDraws := rfl
@[simp] theorem State.halt_font (s : State) : (s.halt).font = s.font := rfl
@[simp] theorem State.halt_shiftSrc (s : State) : (s.halt).shiftSrc = s.shiftSrc := rfl
@[simp] theorem State.halt_result (s : State) : (s.halt).result = some .halted := rfl
@[simp] theorem State.halt_beep (s : State) : (s.halt).beep = s.beep := rfl
@[simp] theorem State.halt_unknown (s : State) : (s.halt).unknown = s.unknown := rfl

/-! ### reportUnknown -/

@[simp] theorem State.reportUnknown_mem (s : State) (w : Word) :
    (s.reportUnknown w).mem = s.mem := rfl
@[simp] theorem State.reportUnknown_x (s : State) (w : Word) : (s.reportUnknown w).x = s.x := rfl
@[simp] theorem State.reportUnknown_I (s : State) (w : Word) : (s.reportUnknown w).I = s.I := rfl
@[simp] theorem State.reportUnknown_pc (s : State) (w : Word) :
    (s.reportUnknown w).pc = s.pc + 2 := rfl
@[simp] theorem State.reportUnknown_stack (s : State) (w : Word) :
    (s.reportUnknown w).stack = s.stack := rfl
@[simp] theorem State.reportUnknown_SP (s : State) (w : Word) : (s.reportUnknown w).SP = s.SP := rfl
@[simp] theorem State.reportUnknown_DT (s : State) (w : Word) : (s.reportUnknown w).DT = s.DT := rfl
@[simp] theorem State.reportUnknown_ST (s : State) (w : Word) : (s.reportUnknown w).ST = s.ST := rfl
@[simp] theorem State.reportUnknown_FB (s : State) (w : Word) : (s.reportUnknown w).FB = s.FB := rfl
@[simp] theorem State.reportUnknown_redraw (s : State) (w : Word) :
    (s.reportUnknown w).redraw = s.redraw := rfl
@[simp] theorem State.reportUnknown_fault (s : State) (w : Word) :
    (s.reportUnknown w).fault = s.fault := rfl
@[simp] theorem State.reportUnknown_faultCause (s : State) (w : Word) :
    (s.reportUnknown w).faultCause = s.faultCause := rfl
@[simp] theorem State.reportUnknown_faultPc (s : State) (w : Word) :
    (s.reportUnknown w).faultPc = s.faultPc := rfl
@[simp] theorem State.reportUnknown_key (s : State) (w : Word) :
    (s.reportUnknown w).key = s.key := rfl
@[simp] theorem State.reportUnknown_keyIn (s : State) (w : Word) :
    (s.reportUnknown w).keyIn = s.keyIn := rfl
@[simp] theorem State.reportUnknown_rndIn (s : State) (w : Word) :
    (s.reportUnknown w).rndIn = s.rndIn := rfl
@[simp] theorem State.reportUnknown_rndDraws (s : State) (w : Word) :
    (s.reportUnknown w).rndDraws = s.rndDraws := rfl
@[simp] theorem State.reportUnknown_font (s : State) (w : Word) :
    (s.reportUnknown w).font = s.font := rfl
@[simp] theorem State.reportUnknown_shiftSrc (s : State) (w : Word) :
    (s.reportUnknown w).shiftSrc = s.shiftSrc := rfl
@[simp] theorem State.reportUnknown_result (s : State) (w : Word) :
    (s.reportUnknown w).result = some .advanced := rfl
@[simp] theorem State.reportUnknown_beep (s : State) (w : Word) :
    (s.reportUnknown w).beep = s.beep := rfl
@[simp] theorem State.reportUnknown_unknown (s : State) (w : Word) :
    (s.reportUnknown w).unknown = some ⟨w, s.pc⟩ := rfl

/-! ### tick -/

@[simp] theorem State.tick_mem (s : State) : (s.tick).mem = s.mem := rfl
@[simp] theorem State.tick_x (s : State) : (s.tick).x = s.x := rfl
@[simp] theorem State.tick_I (s : State) : (s.tick).I = s.I := rfl
@[simp] theorem State.tick_pc (s : State) : (s.tick).pc = s.pc := rfl
@[simp] theorem State.tick_stack (s : State) : (s.tick).stack = s.stack := rfl
@[simp] theorem State.tick_SP (s : State) : (s.tick).SP = s.SP := rfl
@[simp] theorem State.tick_DT (s : State) : (s.tick).DT = countDown s.DT := rfl
@[simp] theorem State.tick_ST (s : State) : (s.tick).ST = countDown s.ST := rfl
@[simp] theorem State.tick_FB (s : State) : (s.tick).FB = s.FB := rfl
@[simp] theorem State.tick_redraw (s : State) : (s.tick).redraw = s.redraw := rfl
@[simp] theorem State.tick_fault (s : State) : (s.tick).fault = s.fault := rfl
@[simp] theorem State.tick_faultCause (s : State) : (s.tick).faultCause = s.faultCause := rfl
@[simp] theorem State.tick_faultPc (s : State) : (s.tick).faultPc = s.faultPc := rfl
@[simp] theorem State.tick_key (s : State) : (s.tick).key = s.key := rfl
@[simp] theorem State.tick_keyIn (s : State) : (s.tick).keyIn = s.keyIn := rfl
@[simp] theorem State.tick_rndIn (s : State) : (s.tick).rndIn = s.rndIn := rfl
@[simp] theorem State.tick_rndDraws (s : State) : (s.tick).rndDraws = s.rndDraws := rfl
@[simp] theorem State.tick_font (s : State) : (s.tick).font = s.font := rfl
@[simp] theorem State.tick_shiftSrc (s : State) : (s.tick).shiftSrc = s.shiftSrc := rfl
@[simp] theorem State.tick_result (s : State) : (s.tick).result = s.result := rfl
@[simp] theorem State.tick_beep (s : State) : (s.tick).beep = (s.beep || s.ST == 1) := rfl
@[simp] theorem State.tick_unknown (s : State) : (s.tick).unknown = s.unknown := rfl

/-! ### Ends of an instruction -/

@[simp] theorem State.finish_eq (s : State) : s.finish = .next { s with result := some .advanced } := rfl
@[simp] theorem State.wait_eq (s : State) : s.wait = .next { s with result := some .waiting } := rfl
@[simp] theorem State.raise_eq (s : State) (c : StackCondition) :
    s.raise c = .next { s with fault := true, faultCause := some c, faultPc := s.pc,
                               result := some .faulted } := rfl

end Sys2Proof.Machine
end

