-- ==== Sys2Proof/Laws/Registers.lean ====
section
/-! SUPPORT. Registers, call stack, framebuffer, keys and the random input: what each shared operation
does, said once. -/

namespace Sys2Proof.Machine

/-- A read of a register after a write. -/
theorem State.reg_setReg (s : State) (r q : Reg) (v : Byte) :
    (s.setReg r v).reg q = if q = r then v else s.reg q := by
  simp only [State.reg, State.setReg, Vector.getElem_set]
  by_cases h : q = r
  · subst h; simp
  · have : r.toNat ≠ q.toNat := fun e => h (BitVec.eq_of_toNat_eq e.symm)
    simp [this, h]

/-- A register read depends on nothing but the register file. -/
theorem State.reg_congr {s t : State} (h : t.x = s.x) (r : Reg) : t.reg r = s.reg r := by
  simp [State.reg, h]

@[simp] theorem State.reg_jump (s : State) (a : Word) (r : Reg) : (s.jump a).reg r = s.reg r := rfl
@[simp] theorem State.reg_advance (s : State) (r : Reg) : s.advance.reg r = s.reg r := rfl
@[simp] theorem State.reg_skipIf (s : State) (c : Bool) (r : Reg) : (s.skipIf c).reg r = s.reg r := rfl
@[simp] theorem State.reg_storeByte (s : State) (a : Word) (v : Byte) (r : Reg) :
    (s.storeByte a v).reg r = s.reg r := rfl
@[simp] theorem State.reg_setI (s : State) (v : Word) (r : Reg) : (s.setI v).reg r = s.reg r := rfl

/-- A push on a stack that is not full. -/
theorem State.push_of_lt {s : State} (v : Word) (h : s.SP.val < 16) :
    s.push v = some { s with stack := s.stack.set s.SP.val v h, SP := ⟨s.SP.val + 1, by omega⟩ } := by
  simp [State.push, h]

/-- A push on a full stack. -/
theorem State.push_of_full {s : State} (v : Word) (h : s.SP.val = 16) : s.push v = none := by
  simp [State.push, h]

/-- A pop of a stack that is not empty. -/
theorem State.pop_of_pos {s : State} (h : 0 < s.SP.val) :
    s.pop = some (s.stack[s.SP.val - 1]'(by omega), { s with SP := ⟨s.SP.val - 1, by omega⟩ }) := by
  simp [State.pop, h]

/-- A pop of an empty stack. -/
theorem State.pop_of_zero {s : State} (h : s.SP.val = 0) : s.pop = none := by
  simp [State.pop, h]

/-- A pixel after a toggle. -/
theorem Framebuffer.pixel_toggle (fb : Framebuffer) (r r' : Fin 32) (c c' : Fin 64) :
    (fb.toggle r c).pixel r' c' = if r' = r ∧ c' = c then !fb.pixel r c else fb.pixel r' c' := by
  simp only [Framebuffer.pixel, Framebuffer.toggle, Fin.getElem_fin, Vector.getElem_set]
  by_cases hr : r' = r
  · subst hr
    by_cases hc : c' = c
    · subst hc; simp
    · have : c.val ≠ c'.val := fun e => hc (Fin.ext e.symm)
      simp [this, hc]
  · have : r.val ≠ r'.val := fun e => hr (Fin.ext e.symm)
    simp [this, hr]

/-- Framebuffers with the same pixels are equal. -/
theorem Framebuffer.ext_pixel {f g : Framebuffer} (h : ∀ r c, f.pixel r c = g.pixel r c) : f = g := by
  apply Vector.ext
  intro r hr
  apply Vector.ext
  intro c hc
  simpa [Framebuffer.pixel] using h ⟨r, hr⟩ ⟨c, hc⟩

@[simp] theorem Framebuffer.pixel_clear (r : Fin 32) (c : Fin 64) :
    Framebuffer.clear.pixel r c = false := by
  simp [Framebuffer.pixel, Framebuffer.clear]

/-- What the largest held key below a bound is. -/
theorem highestBelow_eq_some {keys : Keys} {n k : Nat} :
    highestBelow keys n = some k ↔
      k < n ∧ keys.getLsbD k = true ∧ ∀ j, k < j → j < n → keys.getLsbD j = false := by
  induction n with
  | zero => simp [highestBelow]
  | succ n ih =>
    simp only [highestBelow]
    split
    · rename_i hn
      constructor
      · rintro ⟨⟩
        exact ⟨by omega, hn, fun j hj hj' => absurd hj' (by omega)⟩
      · rintro ⟨hk, _, hall⟩
        rcases Nat.lt_or_ge k n with h | h
        · simp [hall n h (by omega)] at hn
        · congr 1; omega
    · rename_i hn
      rw [ih]
      constructor
      · rintro ⟨hk, hb, hall⟩
        refine ⟨by omega, hb, fun j hj hj' => ?_⟩
        rcases Nat.lt_or_ge j n with h | h
        · exact hall j hj h
        · obtain rfl : j = n := by omega
          simpa using hn
      · rintro ⟨hk, hb, hall⟩
        have : k ≠ n := by rintro rfl; exact hn hb
        exact ⟨by omega, hb, fun j hj hj' => hall j hj (by omega)⟩

/-- No key below a bound is held. -/
theorem highestBelow_eq_none {keys : Keys} {n : Nat} :
    highestBelow keys n = none ↔ ∀ k, k < n → keys.getLsbD k = false := by
  induction n with
  | zero => simp [highestBelow]
  | succ n ih =>
    simp only [highestBelow]
    split
    · rename_i hn
      simp only [reduceCtorEq, false_iff]
      intro h
      simp [h n (by omega)] at hn
    · rename_i hn
      rw [ih]
      refine ⟨fun h k hk => ?_, fun h k hk => h k (by omega)⟩
      rcases Nat.lt_or_ge k n with hk' | hk'
      · exact h k hk'
      · obtain rfl : k = n := by omega
        simpa using hn

/-- A draw with a byte ready consumes that byte. -/
theorem State.drawRnd_cons {s : State} {r : Byte} {rest : List Byte} (h : s.rndIn = r :: rest) :
    s.drawRnd = (r, { s with rndIn := rest }) := by
  simp [State.drawRnd, h]

/-- A draw with no byte ready is the next free value. -/
theorem State.drawRnd_nil {s : State} (h : s.rndIn = []) :
    s.drawRnd = (Config.freeRnd s.rndDraws, { s with rndDraws := s.rndDraws + 1 }) := by
  simp [State.drawRnd, h]

theorem flagByte_toNat (b : Bool) : (flagByte b).toNat = b.toNat := by cases b <;> rfl

end Sys2Proof.Machine
end

