-- ==== Sys2Proof/Laws/Alu.lean ====
section
/-! SUPPORT. What the shared operations of the arithmetic family answer. -/

namespace Sys2Proof.Machine

/-- Writing a result answers a next state with the register written and `pc` at the next word. -/
theorem writeResult_eq (x : Reg) (v : Byte) (s : State) :
    writeResult x v s =
      .next { s with x := s.x.set x.toNat v x.isLt, pc := s.pc + 2, result := some .advanced } := rfl

/-- Flag and result, in the order of R127: the operands of the result are read after the flag is
written. -/
theorem flagThenResult_eq (x a b : Reg) (flag result : Byte → Byte → Byte) (s : State) :
    ∃ t, flagThenResult x a b flag result s = .next t ∧
      t = { s with x := t.x, pc := s.pc + 2, result := some .advanced } ∧
      ∀ r, t.reg r =
        if r = x then
          result (if a = flagReg then flag (s.reg a) (s.reg b) else s.reg a)
            (if b = flagReg then flag (s.reg a) (s.reg b) else s.reg b)
        else if r = flagReg then flag (s.reg a) (s.reg b) else s.reg r := by
  refine ⟨_, rfl, rfl, fun r => ?_⟩
  change (((s.setReg flagReg _).setReg x _).advance).reg r = _
  simp only [State.reg_advance, State.reg_setReg]

end Sys2Proof.Machine
end

