-- ==== Sys2Proof/Laws/Decode.lean ====
section
/-! SUPPORT. The fields of a word built in each format, and a word's two bytes. -/

namespace Sys2Proof

theorem fieldC_formatA (c : Nibble) (nnn : Addr) : fieldC (formatA c nnn) = c := by
  apply BitVec.eq_of_getLsbD_eq; intro i hi
  simp only [fieldC, formatA, BitVec.getLsbD_extractLsb', BitVec.getLsbD_append]
  simp [hi, show ¬ 12 + i < 12 by omega]

theorem fieldNNN_formatA (c : Nibble) (nnn : Addr) : fieldNNN (formatA c nnn) = nnn := by
  apply BitVec.eq_of_getLsbD_eq; intro i hi
  simp only [fieldNNN, formatA, BitVec.getLsbD_extractLsb', BitVec.getLsbD_append]
  simp [hi]

theorem fieldC_formatXB (c : Nibble) (x : Reg) (nn : Byte) : fieldC (formatXB c x nn) = c := by
  apply BitVec.eq_of_getLsbD_eq; intro i hi
  simp only [fieldC, formatXB, BitVec.getLsbD_extractLsb', BitVec.getLsbD_append]
  simp [hi, show ¬ 12 + i < 8 by omega, show ¬ 12 + i - 8 < 4 by omega, show 12 + i - 8 - 4 = i by omega]

theorem fieldX_formatXB (c : Nibble) (x : Reg) (nn : Byte) : fieldX (formatXB c x nn) = x := by
  apply BitVec.eq_of_getLsbD_eq; intro i hi
  simp only [fieldX, formatXB, BitVec.getLsbD_extractLsb', BitVec.getLsbD_append]
  simp [hi, show ¬ 8 + i < 8 by omega, show 8 + i - 8 = i by omega]

theorem fieldNN_formatXB (c : Nibble) (x : Reg) (nn : Byte) : fieldNN (formatXB c x nn) = nn := by
  apply BitVec.eq_of_getLsbD_eq; intro i hi
  simp only [fieldNN, formatXB, BitVec.getLsbD_extractLsb', BitVec.getLsbD_append]
  simp [hi]

theorem fieldC_formatXY (c : Nibble) (x y : Reg) (n : Nibble) : fieldC (formatXY c x y n) = c := by
  apply BitVec.eq_of_getLsbD_eq; intro i hi
  simp only [fieldC, formatXY, BitVec.getLsbD_extractLsb', BitVec.getLsbD_append]
  simp [hi, show ¬ 12 + i < 4 by omega, show ¬ 12 + i - 4 < 4 by omega,
    show ¬ 12 + i - 4 - 4 < 4 by omega, show 12 + i - 4 - 4 - 4 = i by omega]

theorem fieldX_formatXY (c : Nibble) (x y : Reg) (n : Nibble) : fieldX (formatXY c x y n) = x := by
  apply BitVec.eq_of_getLsbD_eq; intro i hi
  simp only [fieldX, formatXY, BitVec.getLsbD_extractLsb', BitVec.getLsbD_append]
  simp [hi, show ¬ 8 + i < 4 by omega, show ¬ 8 + i - 4 < 4 by omega, show 8 + i - 4 - 4 = i by omega]

theorem fieldY_formatXY (c : Nibble) (x y : Reg) (n : Nibble) : fieldY (formatXY c x y n) = y := by
  apply BitVec.eq_of_getLsbD_eq; intro i hi
  simp only [fieldY, formatXY, BitVec.getLsbD_extractLsb', BitVec.getLsbD_append]
  simp [hi, show ¬ 4 + i < 4 by omega, show 4 + i - 4 = i by omega]

theorem fieldN_formatXY (c : Nibble) (x y : Reg) (n : Nibble) : fieldN (formatXY c x y n) = n := by
  apply BitVec.eq_of_getLsbD_eq; intro i hi
  simp only [fieldN, formatXY, BitVec.getLsbD_extractLsb', BitVec.getLsbD_append]
  simp [hi]

/-- A word is its class, `X` and `NN`. -/
theorem formatXB_fields (w : Word) : formatXB (fieldC w) (fieldX w) (fieldNN w) = w := by
  apply BitVec.eq_of_getLsbD_eq; intro i hi
  simp only [fieldC, fieldX, fieldNN, formatXB, BitVec.getLsbD_extractLsb', BitVec.getLsbD_append]
  by_cases h : i < 8
  · simp [h]
  · by_cases h' : i - 8 < 4
    · simp [h, h', show 8 + (i - 8) = i by omega]
    · simp [h, h', show i - 8 - 4 < 4 by omega, show 12 + (i - 8 - 4) = i by omega]

/-- A word is its class, `X`, `Y` and `N`. -/
theorem formatXY_fields (w : Word) : formatXY (fieldC w) (fieldX w) (fieldY w) (fieldN w) = w := by
  apply BitVec.eq_of_getLsbD_eq; intro i hi
  simp only [fieldC, fieldX, fieldY, fieldN, formatXY, BitVec.getLsbD_extractLsb',
    BitVec.getLsbD_append]
  by_cases h : i < 4
  · simp [h]
  · by_cases h1 : i - 4 < 4
    · simp [h, h1, show 4 + (i - 4) = i by omega]
    · by_cases h2 : i - 4 - 4 < 4
      · simp [h, h1, h2, show 8 + (i - 4 - 4) = i by omega]
      · simp [h, h1, h2, show i - 4 - 4 - 4 < 4 by omega, show 12 + (i - 4 - 4 - 4) = i by omega]

/-- A word is its class and `NNN`. -/
theorem formatA_fields (w : Word) : formatA (fieldC w) (fieldNNN w) = w := by
  apply BitVec.eq_of_getLsbD_eq; intro i hi
  simp only [fieldC, fieldNNN, formatA, BitVec.getLsbD_extractLsb', BitVec.getLsbD_append]
  by_cases h : i < 12
  · simp [h]
  · simp [h, show i - 12 < 4 by omega, show 12 + (i - 12) = i by omega]

/-- A word is its two bytes. -/
theorem composeWord_bytes (w : Word) : composeWord (highByte w) (lowByte w) = w := by
  apply BitVec.eq_of_getLsbD_eq; intro i hi
  simp only [composeWord, highByte, lowByte, BitVec.getLsbD_extractLsb', BitVec.getLsbD_append]
  by_cases h : i < 8
  · simp [h]
  · simp [h, show i - 8 < 8 by omega, show 8 + (i - 8) = i by omega]

theorem composeWord_toNat (hi lo : Byte) : (composeWord hi lo).toNat = 256 * hi.toNat + lo.toNat := by
  have := hi.isLt
  have := lo.isLt
  rw [composeWord, BitVec.toNat_append, Nat.shiftLeft_eq, Nat.mul_comm, ← Nat.two_pow_add_eq_or_of_lt lo.isLt]

/-- Every instruction is well formed: its fields carry the bounds in their types. -/
theorem Instr.wellFormed_all (i : Instr) : i.wellFormed = true := by
  have hr : ∀ r : Reg, r.toNat < 16 := fun r => r.isLt
  have hb : ∀ v : Byte, v.toNat < 256 := fun v => v.isLt
  have ha : ∀ v : Addr, v.toNat < 4096 := fun v => v.isLt
  cases i <;> simp [Instr.wellFormed, Instr.rawOperands, RawOperands.wellFormed, hr, hb, ha]

end Sys2Proof
end

