-- ==== Sys2Proof/Laws/Display.lean ====
section
/-! SUPPORT. What a draw does to each pixel and to the collision flag, counted in hits. -/

namespace Sys2Proof.Machine

/-- The drawing `e` comes from `d` by toggles that hit each pixel `hits` times (R151, corner case (e)). -/
structure Drawing.After (d e : Drawing) (hits : Fin 32 → Fin 64 → Nat) : Prop where
  pixel : ∀ r c, e.fb.pixel r c = (d.fb.pixel r c ^^ (hits r c % 2 == 1))
  collision : e.collision = true ↔
    d.collision = true ∨ ∃ r c, (d.fb.pixel r c = true ∧ 1 ≤ hits r c) ∨ 2 ≤ hits r c

theorem Drawing.After.refl (d : Drawing) : d.After d (fun _ _ => 0) :=
  ⟨by simp, by simp⟩

/-- One toggle hits its pixel once. -/
theorem Drawing.toggle_after (d : Drawing) (r : Fin 32) (c : Fin 64) :
    d.After (d.toggle r c) (fun r' c' => if r' = r ∧ c' = c then 1 else 0) := by
  constructor
  · intro r' c'
    simp only [Drawing.toggle, Framebuffer.pixel_toggle]
    split
    · rename_i h; obtain ⟨rfl, rfl⟩ := h; simp
    · simp
  · simp only [Drawing.toggle, Bool.or_eq_true]
    refine or_congr_right ⟨fun h => ⟨r, c, .inl ⟨h, by simp⟩⟩, ?_⟩
    rintro ⟨r', c', ⟨h, hc⟩ | hc⟩
    · split at hc
      · rename_i h'; obtain ⟨rfl, rfl⟩ := h'; exact h
      · omega
    · split at hc <;> omega

/-- Drawings compose and their hits add up. -/
theorem Drawing.After.trans {d e f : Drawing} {g h : Fin 32 → Fin 64 → Nat} (hde : d.After e g)
    (hef : e.After f h) : d.After f (fun r c => g r c + h r c) := by
  constructor
  · intro r c
    rw [hef.pixel, hde.pixel]
    rcases Nat.mod_two_eq_zero_or_one (g r c) with hg | hg <;>
      rcases Nat.mod_two_eq_zero_or_one (h r c) with hh | hh <;>
      simp [Nat.add_mod, hg, hh]
  · rw [hef.collision, hde.collision, or_assoc]
    refine or_congr_right ⟨?_, ?_⟩
    · rintro (⟨r, c, hc⟩ | ⟨r, c, hc⟩)
      · exact ⟨r, c, hc.imp (fun ⟨a, b⟩ => ⟨a, by omega⟩) (fun b => by omega)⟩
      · refine ⟨r, c, ?_⟩
        rw [hde.pixel] at hc
        rcases hc with ⟨hp, hh⟩ | hh
        · by_cases hd : d.fb.pixel r c = true
          · exact .inl ⟨hd, by omega⟩
          · have : g r c % 2 = 1 := by simpa [hd] using hp
            exact .inr (by omega)
        · exact .inr (by omega)
    · rintro ⟨r, c, hc⟩
      by_cases h1 : (d.fb.pixel r c = true ∧ 1 ≤ g r c) ∨ 2 ≤ g r c
      · exact .inl ⟨r, c, h1⟩
      · refine .inr ⟨r, c, ?_⟩
        rw [hde.pixel]
        by_cases hd : d.fb.pixel r c = true
        · have hg : g r c = 0 := by
            by_contra hg; exact h1 (.inl ⟨hd, by omega⟩)
          rcases hc with ⟨_, hh⟩ | hh
          · exact .inl ⟨by simp [hd, hg], by omega⟩
          · exact .inr (by omega)
        · have hg : g r c ≤ 1 := by
            by_contra hg; exact h1 (.inr (by omega))
          rcases hc with ⟨hd', _⟩ | hh
          · exact absurd hd' hd
          · rcases Nat.lt_or_ge 1 (h r c) with h2 | h2
            · exact .inr (by omega)
            · exact .inl ⟨by simp [hd, show g r c = 1 by omega], by omega⟩

/-- One sprite byte: a pixel is hit once for each set bit whose clamped place it is. -/
theorem Drawing.columns_after (d : Drawing) (c0 : Nat) (row : Fin 32) (b : Byte) (n : Nat) :
    d.After (d.columns c0 row b n) (fun r c => (List.range n).countP fun col =>
      spriteBit b col && row == r && clampColumn (c0 + col) == c) := by
  induction n with
  | zero => exact Drawing.After.refl d
  | succ col ih =>
    simp only [Drawing.columns, List.range_succ, List.countP_append]
    by_cases hb : spriteBit b col = true
    · rw [if_pos hb]
      refine cast (congrArg _ ?_) (ih.trans (Drawing.toggle_after _ row (clampColumn (c0 + col))))
      funext r c
      simp [List.countP_cons, hb, @eq_comm _ r row, @eq_comm _ c (clampColumn (c0 + col))]
    · rw [if_neg hb]
      refine cast (congrArg _ ?_) ih
      funext r c
      simp [hb]

/-- A sprite: the hits of its rows add up. -/
theorem Drawing.rows_after (d : Drawing) (c0 r0 : Nat) (sprite : Nat → Byte) (n : Nat) :
    d.After (d.rows c0 r0 sprite n) (fun r c => ((List.range n).map fun row =>
      (List.range 8).countP fun col =>
        spriteBit (sprite row) col && clampRow (r0 + row) == r && clampColumn (c0 + col) == c).sum) := by
  induction n with
  | zero => exact Drawing.After.refl d
  | succ row ih =>
    simp only [Drawing.rows, @List.range_succ row, List.map_append, List.sum_append, List.map_cons, List.map_nil,
      List.sum_cons, List.sum_nil, Nat.add_zero]
    exact ih.trans (Drawing.columns_after _ c0 (clampRow (r0 + row)) (sprite row) 8)

end Sys2Proof.Machine
end

