-- ==== Sys2Proof/Laws/Memory.lean ====
section
/-! SUPPORT. Memory: a read after a write, the canonical form, and the reduction of addresses. -/

namespace Sys2Proof.Machine

theorem Memory.lookup_put (a c : Nat) (v : Byte) (m : Memory) :
    Memory.lookup (Memory.put a v m) c = if c = a then some v else Memory.lookup m c := by
  induction m with
  | nil => simp [Memory.put, Memory.lookup]
  | cons p m ih =>
    obtain ⟨b, w⟩ := p
    simp only [Memory.put]
    split
    · simp [Memory.lookup]
    · split
      · subst_vars; simp only [Memory.lookup]; split <;> rfl
      · simp only [Memory.lookup, ih]
        by_cases hcb : c = b
        · subst hcb; simp; omega
        · simp [hcb]

theorem Memory.lookup_erase (a c : Nat) (m : Memory) :
    Memory.lookup (Memory.erase a m) c = if c = a then none else Memory.lookup m c := by
  induction m with
  | nil => simp [Memory.erase, Memory.lookup]
  | cons p m ih =>
    obtain ⟨b, w⟩ := p
    simp only [Memory.erase]
    split
    · subst_vars; simp only [ih, Memory.lookup]; split <;> rfl
    · simp only [Memory.lookup, ih]
      by_cases hcb : c = b
      · subst hcb; simp; omega
      · simp [hcb]

/-- A read after a write: the byte written at that address, the old byte at every other. -/
theorem Memory.read_write (font : Vector Byte 80) (a c : Nat) (v : Byte) (m : Memory) :
    Memory.read font (Memory.write font a v m) c = if c = a then v else Memory.read font m c := by
  simp only [Memory.read, Memory.write]
  split <;> simp only [Memory.lookup_put, Memory.lookup_erase] <;> split <;> simp_all

theorem Memory.mem_put {a : Nat} {v : Byte} {m : Memory} {p : Host.Cell}
    (h : p ∈ Memory.put a v m) : p = (a, v) ∨ p ∈ m := by
  induction m with
  | nil => simpa [Memory.put] using h
  | cons q m ih =>
    obtain ⟨b, w⟩ := q
    simp only [Memory.put] at h
    split at h
    · simpa using h
    · split at h
      · simp only [List.mem_cons] at h ⊢; tauto
      · simp only [List.mem_cons] at h ⊢
        rcases h with h | h
        · exact .inr (.inl h)
        · rcases ih h with h | h
          · exact .inl h
          · exact .inr (.inr h)

theorem Memory.mem_erase {a : Nat} {m : Memory} {p : Host.Cell} (h : p ∈ Memory.erase a m) : p ∈ m := by
  induction m with
  | nil => simp [Memory.erase] at h
  | cons q m ih =>
    obtain ⟨b, w⟩ := q
    simp only [Memory.erase] at h
    split at h
    · exact List.mem_cons_of_mem _ (ih h)
    · simp only [List.mem_cons] at h ⊢
      exact h.imp_right ih

theorem Memory.put_sorted (a : Nat) (v : Byte) {m : Memory}
    (h : m.Pairwise (fun p q => p.1 < q.1)) : (Memory.put a v m).Pairwise (fun p q => p.1 < q.1) := by
  induction m with
  | nil => simp [Memory.put]
  | cons q m ih =>
    obtain ⟨b, w⟩ := q
    rw [List.pairwise_cons] at h
    simp only [Memory.put]
    split
    · rename_i hab
      refine List.pairwise_cons.2 ⟨?_, List.pairwise_cons.2 h⟩
      intro p hp
      rcases List.mem_cons.1 hp with rfl | hp
      · exact hab
      · exact Nat.lt_trans hab (h.1 p hp)
    · split
      · subst_vars; exact List.pairwise_cons.2 h
      · refine List.pairwise_cons.2 ⟨?_, ih h.2⟩
        intro p hp
        rcases Memory.mem_put hp with rfl | hp
        · simp only; omega
        · exact h.1 p hp

theorem Memory.erase_sorted (a : Nat) {m : Memory}
    (h : m.Pairwise (fun p q => p.1 < q.1)) : (Memory.erase a m).Pairwise (fun p q => p.1 < q.1) := by
  induction m with
  | nil => simp [Memory.erase]
  | cons q m ih =>
    obtain ⟨b, w⟩ := q
    rw [List.pairwise_cons] at h
    simp only [Memory.erase]
    split
    · exact ih h.2
    · exact List.pairwise_cons.2 ⟨fun p hp => h.1 p (Memory.mem_erase hp), ih h.2⟩

/-- A write keeps the canonical form. -/
theorem Memory.write_wf {font : Vector Byte 80} {a : Nat} {v : Byte} {m : Memory} (ha : a < 4096)
    (h : Memory.wf font m) : Memory.wf font (Memory.write font a v m) := by
  simp only [Memory.write]
  split
  · exact ⟨Memory.erase_sorted a h.1, fun p hp => h.2 p (Memory.mem_erase hp)⟩
  · rename_i hv
    refine ⟨Memory.put_sorted a v h.1, fun p hp => ?_⟩
    rcases Memory.mem_put hp with rfl | hp
    · exact ⟨ha, hv⟩
    · exact h.2 p hp

theorem reset_mem_wf : Memory.wf State.reset.font State.reset.mem := by decide

theorem memIndex_lt (a : Word) : memIndex a < 4096 := Nat.mod_lt _ (by decide)

/-- `MemWrite` keeps the canonical form. -/
theorem State.storeByte_wf {s : State} (a : Word) (v : Byte) (h : Memory.wf s.font s.mem) :
    Memory.wf (s.storeByte a v).font (s.storeByte a v).mem :=
  Memory.write_wf (memIndex_lt a) h

/-- `MemRead` after `MemWrite`: two addresses name one byte when they agree modulo 4096. -/
theorem State.loadByte_storeByte (s : State) (a c : Word) (v : Byte) :
    (s.storeByte a v).loadByte c = if memIndex c = memIndex a then v else s.loadByte c :=
  Memory.read_write _ _ _ _ _

/-- A read depends on nothing but memory and the reset contents. -/
theorem State.loadByte_congr {s t : State} (hm : t.mem = s.mem) (hf : t.font = s.font) (a : Word) :
    t.loadByte a = s.loadByte a := by
  simp [State.loadByte, hm, hf]

/-- Bytes through `I` less than 4096 apart are different bytes. -/
theorem State.memIndex_indexed_ne (s : State) {j k : Nat} (hj : j < 4096) (hk : k < 4096)
    (h : j ≠ k) : memIndex (s.indexed j) ≠ memIndex (s.indexed k) := by
  simp only [State.indexed, memIndex, BitVec.toNat_add, BitVec.toNat_ofNat]
  omega

end Sys2Proof.Machine
end

