-- ==== Sys2Proof/Laws/Index.lean ====
section
/-! SUPPORT. What storing and loading a range of registers does. -/

namespace Sys2Proof.Machine

/-- A dump changes memory only. -/
theorem State.dumpRegs_frame (s : State) (n : Nat) :
    s.dumpRegs n = { s with mem := (s.dumpRegs n).mem } := by
  induction n with
  | zero => rfl
  | succ k ih =>
    simp only [State.dumpRegs]
    rw [ih]
    rfl

/-- A dump keeps the canonical form of memory. -/
theorem State.dumpRegs_wf {s : State} (n : Nat) (h : Memory.wf s.font s.mem) :
    Memory.wf (s.dumpRegs n).font (s.dumpRegs n).mem := by
  induction n with
  | zero => exact h
  | succ k ih => exact State.storeByte_wf _ _ ih

/-- A byte outside the addresses of a dump. -/
theorem State.dumpRegs_other (s : State) (n : Nat) (a : Word)
    (h : ∀ k, k < n → memIndex a ≠ memIndex (s.indexed k)) :
    (s.dumpRegs n).loadByte a = s.loadByte a := by
  induction n with
  | zero => rfl
  | succ k ih =>
    simp only [State.dumpRegs, State.loadByte_storeByte, if_neg (h k (by omega))]
    exact ih fun j hj => h j (by omega)

/-- The k-th byte of a dump of at most 4096 registers. -/
theorem State.dumpRegs_stored (s : State) {n k : Nat} (hn : n ≤ 4096) (hk : k < n) :
    (s.dumpRegs n).loadByte (s.indexed k) = s.reg (BitVec.ofNat 4 k) := by
  induction n with
  | zero => omega
  | succ m ih =>
    simp only [State.dumpRegs, State.loadByte_storeByte]
    by_cases h : k = m
    · subst h; simp
    · rw [if_neg (s.memIndex_indexed_ne (by omega) (by omega) h)]
      exact ih (by omega) (by omega)

/-- A load changes registers only. -/
theorem State.loadRegs_frame (s : State) (n : Nat) :
    s.loadRegs n = { s with x := (s.loadRegs n).x } := by
  induction n with
  | zero => rfl
  | succ k ih =>
    simp only [State.loadRegs]
    rw [ih]
    rfl

/-- A register after a load of the first `n`. -/
theorem State.reg_loadRegs (s : State) {n : Nat} (hn : n ≤ 16) (r : Reg) :
    (s.loadRegs n).reg r = if r.toNat < n then s.loadByte (s.indexed r.toNat) else s.reg r := by
  induction n with
  | zero => simp [State.loadRegs]
  | succ k ih =>
    simp only [State.loadRegs, State.reg_setReg, ih (by omega)]
    by_cases h : r = BitVec.ofNat 4 k
    · have hk : r.toNat = k := by rw [h, BitVec.toNat_ofNat]; omega
      rw [if_pos h, if_pos (by omega), hk]
    · have : r.toNat ≠ k := fun e => h (by rw [← e]; simp)
      rw [if_neg h]
      by_cases hk : r.toNat < k
      · rw [if_pos hk, if_pos (by omega)]
      · rw [if_neg hk, if_neg (by omega)]

end Sys2Proof.Machine
end

