-- ==== Sys2Proof/Laws/Exec.lean ====
section
/-! SUPPORT. The meanings that branch: what each answers in each case and, the other way round, which
case it was if one answers a next state; and the end of a cycle. -/

namespace Sys2Proof.Machine

/-- `RET` on a stack that is not empty. -/
theorem execRet_of_pos {s : State} (h : 0 < s.SP.val) :
    execRet s = .next { s with
      pc := s.stack[s.SP.val - 1]'(by omega) + 2
      SP := ⟨s.SP.val - 1, by omega⟩
      result := some .advanced } := by
  simp only [execRet, State.pop_of_pos h, State.finish_eq]
  rfl

/-- `CALL` on a stack that is not full. -/
theorem execCall_of_lt (nnn : Addr) {s : State} (h : s.SP.val < 16) :
    execCall nnn s = .next { s with
      pc := addrWord nnn
      stack := s.stack.set s.SP.val s.pc h
      SP := ⟨s.SP.val + 1, by omega⟩
      result := some .advanced } := by
  simp only [execCall, State.push_of_lt s.pc h, State.finish_eq]
  rfl

/-- `RND` writes its register and consumes one draw. -/
theorem execRnd_eq (x : Reg) (nn : Byte) (s : State) :
    execRnd x nn s = .next { s with
      x := s.x.set x.toNat (s.drawRnd.1 &&& nn) x.isLt
      pc := s.pc + 2
      rndIn := s.drawRnd.2.rndIn
      rndDraws := s.drawRnd.2.rndDraws
      result := some .advanced } := by
  simp only [execRnd, writeResult_eq]
  cases hr : s.rndIn with
  | nil => simp [State.drawRnd, hr]
  | cons r rest => simp [State.drawRnd, hr]

/-- `RET` returns or raises. -/
theorem execRet_cases {s t : State} (h : execRet s = .next t) :
    (∃ hp : 0 < s.SP.val, t = { s with
      pc := s.stack[s.SP.val - 1]'(by omega) + 2
      SP := ⟨s.SP.val - 1, by omega⟩
      result := some .advanced }) ∨
    (s.SP.val = 0 ∧ t = { s with
      fault := true
      faultCause := some .stackUnderflow
      faultPc := s.pc
      result := some .faulted }) := by
  rcases Nat.eq_zero_or_pos s.SP.val with hz | hp
  · simp only [execRet, State.pop_of_zero hz, State.raise_eq] at h
    cases h
    exact .inr ⟨hz, rfl⟩
  · rw [execRet_of_pos hp] at h
    cases h
    exact .inl ⟨hp, rfl⟩

/-- `CALL` pushes and jumps, or raises. -/
theorem execCall_cases {nnn : Addr} {s t : State} (h : execCall nnn s = .next t) :
    (∃ hp : s.SP.val < 16, t = { s with
      pc := addrWord nnn
      stack := s.stack.set s.SP.val s.pc hp
      SP := ⟨s.SP.val + 1, by omega⟩
      result := some .advanced }) ∨
    (s.SP.val = 16 ∧ t = { s with
      fault := true
      faultCause := some .stackOverflow
      faultPc := s.pc
      result := some .faulted }) := by
  rcases Nat.lt_or_ge s.SP.val 16 with hp | hz
  · rw [execCall_of_lt nnn hp] at h
    cases h
    exact .inl ⟨hp, rfl⟩
  · have hz : s.SP.val = 16 := by omega
    simp only [execCall, State.push_of_full s.pc hz, State.raise_eq] at h
    cases h
    exact .inr ⟨hz, rfl⟩

/-- `WKEY` takes the highest held key, or waits. -/
theorem execWkey_cases {x : Reg} {s t : State} (h : execWkey x s = .next t) :
    (∃ k, highestKey s.key = some k ∧ t = { s with
      x := s.x.set x.toNat (BitVec.ofNat 8 k) x.isLt
      pc := s.pc + 2
      result := some .advanced }) ∨
    (highestKey s.key = none ∧ t = { s with result := some .waiting }) := by
  cases hk : highestKey s.key with
  | none =>
    simp only [execWkey, hk, State.wait_eq] at h
    cases h
    exact .inr ⟨rfl, rfl⟩
  | some k =>
    simp only [execWkey, hk, State.finish_eq] at h
    cases h
    exact .inl ⟨k, rfl, rfl⟩

/-- If `RND` answers a next state, it is this one. -/
theorem execRnd_cases {x : Reg} {nn : Byte} {s t : State} (h : execRnd x nn s = .next t) :
    t = { s with x := s.x.set x.toNat (s.drawRnd.1 &&& nn) x.isLt, pc := s.pc + 2,
                 rndIn := s.drawRnd.2.rndIn, rndDraws := s.drawRnd.2.rndDraws,
                 result := some .advanced } := by
  rw [execRnd_eq] at h
  cases h
  rfl

/-- `DUMP` changes memory, `pc` and the result. -/
theorem execDump_cases {x : Reg} {s t : State} (h : execDump x s = .next t) :
    t = { s with mem := (s.dumpRegs (x.toNat + 1)).mem, pc := s.pc + 2, result := some .advanced } := by
  simp only [execDump, State.finish_eq] at h
  cases h
  rw [State.dumpRegs_frame]
  rfl

/-- `LOAD` changes registers, `pc` and the result. -/
theorem execLoad_cases {x : Reg} {s t : State} (h : execLoad x s = .next t) :
    t = { s with x := (s.loadRegs (x.toNat + 1)).x, pc := s.pc + 2, result := some .advanced } := by
  simp only [execLoad, State.finish_eq] at h
  cases h
  rw [State.loadRegs_frame]
  rfl

/-- A run of one more cycle, when the first answers a next state. -/
theorem run_succ {s t : State} (h : step s = .next t) (n : Nat) :
    Sys2Proof.core.run (n + 1) s = Sys2Proof.core.run n t := by
  have (M : Host.Core) {a b : M.State} (hab : M.step a = .next b) : M.run (n + 1) a = M.run n b := by
    simp only [Host.Core.run, hab]
  exact this Sys2Proof.core h

/-- The end of a cycle changes the timers and the beep, and those only. -/
theorem State.endCycle_frame (t : State) :
    t.endCycle = { t with DT := t.endCycle.DT, ST := t.endCycle.ST, beep := t.endCycle.beep } := by
  unfold State.endCycle
  split <;> rfl

/-- A timer's value after it counts down. -/
theorem countDown_toNat (v : Byte) : (countDown v).toNat = v.toNat - 1 := by
  unfold countDown
  split
  · subst_vars; rfl
  · rename_i h
    have h0 : v.toNat ≠ 0 := fun e => h (BitVec.eq_of_toNat_eq e)
    have := v.isLt
    simp [BitVec.toNat_sub]
    omega

end Sys2Proof.Machine
end

