-- ==== Sys2Proof/Laws/PerInstr.lean ====
section
/-! SUPPORT. One fact per instruction: its encoding holds the class and the secondary code of its row of
spec/opcode_table.json and each operand in its field (R71, R72). -/

namespace Sys2Proof.Laws.TableRow

/-- The encoding of an instruction against its row of the opcode table. -/
def Statement : Instr → Prop
  | .cls =>
    encode .cls = 0x00E0
  | .ret =>
    encode .ret = 0x00EE
  | .jp nnn =>
    fieldC (encode (.jp nnn)) = 0x1 ∧ fieldNNN (encode (.jp nnn)) = nnn
  | .call nnn =>
    fieldC (encode (.call nnn)) = 0x2 ∧ fieldNNN (encode (.call nnn)) = nnn
  | .sei x nn =>
    fieldC (encode (.sei x nn)) = 0x3 ∧ fieldX (encode (.sei x nn)) = x ∧ fieldNN (encode (.sei x nn)) = nn
  | .snei x nn =>
    fieldC (encode (.snei x nn)) = 0x4 ∧ fieldX (encode (.snei x nn)) = x ∧ fieldNN (encode (.snei x nn)) = nn
  | .ser x y =>
    fieldC (encode (.ser x y)) = 0x5 ∧ fieldX (encode (.ser x y)) = x ∧ fieldY (encode (.ser x y)) = y ∧
    fieldN (encode (.ser x y)) = 0x0
  | .ldb x nn =>
    fieldC (encode (.ldb x nn)) = 0x6 ∧ fieldX (encode (.ldb x nn)) = x ∧ fieldNN (encode (.ldb x nn)) = nn
  | .addb x nn =>
    fieldC (encode (.addb x nn)) = 0x7 ∧ fieldX (encode (.addb x nn)) = x ∧ fieldNN (encode (.addb x nn)) = nn
  | .mov x y =>
    fieldC (encode (.mov x y)) = 0x8 ∧ fieldX (encode (.mov x y)) = x ∧ fieldY (encode (.mov x y)) = y ∧
    fieldN (encode (.mov x y)) = 0x0
  | .or x y =>
    fieldC (encode (.or x y)) = 0x8 ∧ fieldX (encode (.or x y)) = x ∧ fieldY (encode (.or x y)) = y ∧
    fieldN (encode (.or x y)) = 0x1
  | .and x y =>
    fieldC (encode (.and x y)) = 0x8 ∧ fieldX (encode (.and x y)) = x ∧ fieldY (encode (.and x y)) = y ∧
    fieldN (encode (.and x y)) = 0x2
  | .xor x y =>
    fieldC (encode (.xor x y)) = 0x8 ∧ fieldX (encode (.xor x y)) = x ∧ fieldY (encode (.xor x y)) = y ∧
    fieldN (encode (.xor x y)) = 0x3
  | .add x y =>
    fieldC (encode (.add x y)) = 0x8 ∧ fieldX (encode (.add x y)) = x ∧ fieldY (encode (.add x y)) = y ∧
    fieldN (encode (.add x y)) = 0x4
  | .sub x y =>
    fieldC (encode (.sub x y)) = 0x8 ∧ fieldX (encode (.sub x y)) = x ∧ fieldY (encode (.sub x y)) = y ∧
    fieldN (encode (.sub x y)) = 0x5
  | .shr x y =>
    fieldC (encode (.shr x y)) = 0x8 ∧ fieldX (encode (.shr x y)) = x ∧ fieldY (encode (.shr x y)) = y ∧
    fieldN (encode (.shr x y)) = 0x6
  | .subn x y =>
    fieldC (encode (.subn x y)) = 0x8 ∧ fieldX (encode (.subn x y)) = x ∧ fieldY (encode (.subn x y)) = y ∧
    fieldN (encode (.subn x y)) = 0x7
  | .shl x y =>
    fieldC (encode (.shl x y)) = 0x8 ∧ fieldX (encode (.shl x y)) = x ∧ fieldY (encode (.shl x y)) = y ∧
    fieldN (encode (.shl x y)) = 0xE
  | .sner x y =>
    fieldC (encode (.sner x y)) = 0x9 ∧ fieldX (encode (.sner x y)) = x ∧ fieldY (encode (.sner x y)) = y ∧
    fieldN (encode (.sner x y)) = 0x0
  | .ldi nnn =>
    fieldC (encode (.ldi nnn)) = 0xA ∧ fieldNNN (encode (.ldi nnn)) = nnn
  | .jpo nnn =>
    fieldC (encode (.jpo nnn)) = 0xB ∧ fieldNNN (encode (.jpo nnn)) = nnn
  | .rnd x nn =>
    fieldC (encode (.rnd x nn)) = 0xC ∧ fieldX (encode (.rnd x nn)) = x ∧ fieldNN (encode (.rnd x nn)) = nn
  | .drw x y n =>
    fieldC (encode (.drw x y n)) = 0xD ∧ fieldX (encode (.drw x y n)) = x ∧ fieldY (encode (.drw x y n)) = y ∧
    fieldN (encode (.drw x y n)) = n
  | .skp x =>
    fieldC (encode (.skp x)) = 0xE ∧ fieldX (encode (.skp x)) = x ∧ fieldNN (encode (.skp x)) = 0x9E
  | .sknp x =>
    fieldC (encode (.sknp x)) = 0xE ∧ fieldX (encode (.sknp x)) = x ∧ fieldNN (encode (.sknp x)) = 0xA1
  | .gdt x =>
    fieldC (encode (.gdt x)) = 0xF ∧ fieldX (encode (.gdt x)) = x ∧ fieldNN (encode (.gdt x)) = 0x07
  | .wkey x =>
    fieldC (encode (.wkey x)) = 0xF ∧ fieldX (encode (.wkey x)) = x ∧ fieldNN (encode (.wkey x)) = 0x0A
  | .sdt x =>
    fieldC (encode (.sdt x)) = 0xF ∧ fieldX (encode (.sdt x)) = x ∧ fieldNN (encode (.sdt x)) = 0x15
  | .sst x =>
    fieldC (encode (.sst x)) = 0xF ∧ fieldX (encode (.sst x)) = x ∧ fieldNN (encode (.sst x)) = 0x18
  | .addi x =>
    fieldC (encode (.addi x)) = 0xF ∧ fieldX (encode (.addi x)) = x ∧ fieldNN (encode (.addi x)) = 0x1E
  | .ldf x =>
    fieldC (encode (.ldf x)) = 0xF ∧ fieldX (encode (.ldf x)) = x ∧ fieldNN (encode (.ldf x)) = 0x29
  | .bcd x =>
    fieldC (encode (.bcd x)) = 0xF ∧ fieldX (encode (.bcd x)) = x ∧ fieldNN (encode (.bcd x)) = 0x33
  | .dump x =>
    fieldC (encode (.dump x)) = 0xF ∧ fieldX (encode (.dump x)) = x ∧ fieldNN (encode (.dump x)) = 0x55
  | .load x =>
    fieldC (encode (.load x)) = 0xF ∧ fieldX (encode (.load x)) = x ∧ fieldNN (encode (.load x)) = 0x65

theorem cls : Statement .cls := rfl
theorem ret : Statement .ret := rfl
theorem jp (nnn : Addr) : Statement (.jp nnn) := by
  simp [Statement, encode, fieldC_formatA, fieldNNN_formatA]
theorem call (nnn : Addr) : Statement (.call nnn) := by
  simp [Statement, encode, fieldC_formatA, fieldNNN_formatA]
theorem sei (x : Reg) (nn : Byte) : Statement (.sei x nn) := by
  simp [Statement, encode, fieldC_formatXB, fieldX_formatXB, fieldNN_formatXB]
theorem snei (x : Reg) (nn : Byte) : Statement (.snei x nn) := by
  simp [Statement, encode, fieldC_formatXB, fieldX_formatXB, fieldNN_formatXB]
theorem ser (x y : Reg) : Statement (.ser x y) := by
  simp [Statement, encode, fieldC_formatXY, fieldX_formatXY, fieldY_formatXY, fieldN_formatXY]
theorem ldb (x : Reg) (nn : Byte) : Statement (.ldb x nn) := by
  simp [Statement, encode, fieldC_formatXB, fieldX_formatXB, fieldNN_formatXB]
theorem addb (x : Reg) (nn : Byte) : Statement (.addb x nn) := by
  simp [Statement, encode, fieldC_formatXB, fieldX_formatXB, fieldNN_formatXB]
theorem mov (x y : Reg) : Statement (.mov x y) := by
  simp [Statement, encode, fieldC_formatXY, fieldX_formatXY, fieldY_formatXY, fieldN_formatXY]
theorem or (x y : Reg) : Statement (.or x y) := by
  simp [Statement, encode, fieldC_formatXY, fieldX_formatXY, fieldY_formatXY, fieldN_formatXY]
theorem and (x y : Reg) : Statement (.and x y) := by
  simp [Statement, encode, fieldC_formatXY, fieldX_formatXY, fieldY_formatXY, fieldN_formatXY]
theorem xor (x y : Reg) : Statement (.xor x y) := by
  simp [Statement, encode, fieldC_formatXY, fieldX_formatXY, fieldY_formatXY, fieldN_formatXY]
theorem add (x y : Reg) : Statement (.add x y) := by
  simp [Statement, encode, fieldC_formatXY, fieldX_formatXY, fieldY_formatXY, fieldN_formatXY]
theorem sub (x y : Reg) : Statement (.sub x y) := by
  simp [Statement, encode, fieldC_formatXY, fieldX_formatXY, fieldY_formatXY, fieldN_formatXY]
theorem shr (x y : Reg) : Statement (.shr x y) := by
  simp [Statement, encode, fieldC_formatXY, fieldX_formatXY, fieldY_formatXY, fieldN_formatXY]
theorem subn (x y : Reg) : Statement (.subn x y) := by
  simp [Statement, encode, fieldC_formatXY, fieldX_formatXY, fieldY_formatXY, fieldN_formatXY]
theorem shl (x y : Reg) : Statement (.shl x y) := by
  simp [Statement, encode, fieldC_formatXY, fieldX_formatXY, fieldY_formatXY, fieldN_formatXY]
theorem sner (x y : Reg) : Statement (.sner x y) := by
  simp [Statement, encode, fieldC_formatXY, fieldX_formatXY, fieldY_formatXY, fieldN_formatXY]
theorem ldi (nnn : Addr) : Statement (.ldi nnn) := by
  simp [Statement, encode, fieldC_formatA, fieldNNN_formatA]
theorem jpo (nnn : Addr) : Statement (.jpo nnn) := by
  simp [Statement, encode, fieldC_formatA, fieldNNN_formatA]
theorem rnd (x : Reg) (nn : Byte) : Statement (.rnd x nn) := by
  simp [Statement, encode, fieldC_formatXB, fieldX_formatXB, fieldNN_formatXB]
theorem drw (x y : Reg) (n : Nibble) : Statement (.drw x y n) := by
  simp [Statement, encode, fieldC_formatXY, fieldX_formatXY, fieldY_formatXY, fieldN_formatXY]
theorem skp (x : Reg) : Statement (.skp x) := by
  simp [Statement, encode, fieldC_formatXB, fieldX_formatXB, fieldNN_formatXB]
theorem sknp (x : Reg) : Statement (.sknp x) := by
  simp [Statement, encode, fieldC_formatXB, fieldX_formatXB, fieldNN_formatXB]
theorem gdt (x : Reg) : Statement (.gdt x) := by
  simp [Statement, encode, fieldC_formatXB, fieldX_formatXB, fieldNN_formatXB]
theorem wkey (x : Reg) : Statement (.wkey x) := by
  simp [Statement, encode, fieldC_formatXB, fieldX_formatXB, fieldNN_formatXB]
theorem sdt (x : Reg) : Statement (.sdt x) := by
  simp [Statement, encode, fieldC_formatXB, fieldX_formatXB, fieldNN_formatXB]
theorem sst (x : Reg) : Statement (.sst x) := by
  simp [Statement, encode, fieldC_formatXB, fieldX_formatXB, fieldNN_formatXB]
theorem addi (x : Reg) : Statement (.addi x) := by
  simp [Statement, encode, fieldC_formatXB, fieldX_formatXB, fieldNN_formatXB]
theorem ldf (x : Reg) : Statement (.ldf x) := by
  simp [Statement, encode, fieldC_formatXB, fieldX_formatXB, fieldNN_formatXB]
theorem bcd (x : Reg) : Statement (.bcd x) := by
  simp [Statement, encode, fieldC_formatXB, fieldX_formatXB, fieldNN_formatXB]
theorem dump (x : Reg) : Statement (.dump x) := by
  simp [Statement, encode, fieldC_formatXB, fieldX_formatXB, fieldNN_formatXB]
theorem load (x : Reg) : Statement (.load x) := by
  simp [Statement, encode, fieldC_formatXB, fieldX_formatXB, fieldNN_formatXB]

end Sys2Proof.Laws.TableRow
end

