-- ==== Sys2Proof/Laws/Ports.lean ====
section
/-! SUPPORT. What each action of the host leaves in each field, and what a load stores. -/

namespace Sys2Proof.Machine

/-! ### ackRedraw -/

@[simp] theorem State.ackRedraw_mem (s : State) : (s.ackRedraw).mem = s.mem := rfl
@[simp] theorem State.ackRedraw_x (s : State) : (s.ackRedraw).x = s.x := rfl
@[simp] theorem State.ackRedraw_I (s : State) : (s.ackRedraw).I = s.I := rfl
@[simp] theorem State.ackRedraw_pc (s : State) : (s.ackRedraw).pc = s.pc := rfl
@[simp] theorem State.ackRedraw_stack (s : State) : (s.ackRedraw).stack = s.stack := rfl
@[simp] theorem State.ackRedraw_SP (s : State) : (s.ackRedraw).SP = s.SP := rfl
@[simp] theorem State.ackRedraw_DT (s : State) : (s.ackRedraw).DT = s.DT := rfl
@[simp] theorem State.ackRedraw_ST (s : State) : (s.ackRedraw).ST = s.ST := rfl
@[simp] theorem State.ackRedraw_FB (s : State) : (s.ackRedraw).FB = s.FB := rfl
@[simp] theorem State.ackRedraw_redraw (s : State) : (s.ackRedraw).redraw = false := rfl
@[simp] theorem State.ackRedraw_fault (s : State) : (s.ackRedraw).fault = s.fault := rfl
@[simp] theorem State.ackRedraw_faultCause (s : State) :
    (s.ackRedraw).faultCause = s.faultCause := rfl
@[simp] theorem State.ackRedraw_faultPc (s : State) : (s.ackRedraw).faultPc = s.faultPc := rfl
@[simp] theorem State.ackRedraw_key (s : State) : (s.ackRedraw).key = s.key := rfl
@[simp] theorem State.ackRedraw_keyIn (s : State) : (s.ackRedraw).keyIn = s.keyIn := rfl
@[simp] theorem State.ackRedraw_rndIn (s : State) : (s.ackRedraw).rndIn = s.rndIn := rfl
@[simp] theorem State.ackRedraw_rndDraws (s : State) : (s.ackRedraw).rndDraws = s.rndDraws := rfl
@[simp] theorem State.ackRedraw_font (s : State) : (s.ackRedraw).font = s.font := rfl
@[simp] theorem State.ackRedraw_shiftSrc (s : State) : (s.ackRedraw).shiftSrc = s.shiftSrc := rfl
@[simp] theorem State.ackRedraw_result (s : State) : (s.ackRedraw).result = s.result := rfl
@[simp] theorem State.ackRedraw_beep (s : State) : (s.ackRedraw).beep = s.beep := rfl
@[simp] theorem State.ackRedraw_unknown (s : State) : (s.ackRedraw).unknown = s.unknown := rfl

/-! ### presentKeys -/

@[simp] theorem State.presentKeys_mem (s : State) (ks : List Keys) :
    (s.presentKeys ks).mem = s.mem := rfl
@[simp] theorem State.presentKeys_x (s : State) (ks : List Keys) : (s.presentKeys ks).x = s.x := rfl
@[simp] theorem State.presentKeys_I (s : State) (ks : List Keys) : (s.presentKeys ks).I = s.I := rfl
@[simp] theorem State.presentKeys_pc (s : State) (ks : List Keys) :
    (s.presentKeys ks).pc = s.pc := rfl
@[simp] theorem State.presentKeys_stack (s : State) (ks : List Keys) :
    (s.presentKeys ks).stack = s.stack := rfl
@[simp] theorem State.presentKeys_SP (s : State) (ks : List Keys) :
    (s.presentKeys ks).SP = s.SP := rfl
@[simp] theorem State.presentKeys_DT (s : State) (ks : List Keys) :
    (s.presentKeys ks).DT = s.DT := rfl
@[simp] theorem State.presentKeys_ST (s : State) (ks : List Keys) :
    (s.presentKeys ks).ST = s.ST := rfl
@[simp] theorem State.presentKeys_FB (s : State) (ks : List Keys) :
    (s.presentKeys ks).FB = s.FB := rfl
@[simp] theorem State.presentKeys_redraw (s : State) (ks : List Keys) :
    (s.presentKeys ks).redraw = s.redraw := rfl
@[simp] theorem State.presentKeys_fault (s : State) (ks : List Keys) :
    (s.presentKeys ks).fault = s.fault := rfl
@[simp] theorem State.presentKeys_faultCause (s : State) (ks : List Keys) :
    (s.presentKeys ks).faultCause = s.faultCause := rfl
@[simp] theorem State.presentKeys_faultPc (s : State) (ks : List Keys) :
    (s.presentKeys ks).faultPc = s.faultPc := rfl
@[simp] theorem State.presentKeys_key (s : State) (ks : List Keys) :
    (s.presentKeys ks).key = s.key := rfl
@[simp] theorem State.presentKeys_keyIn (s : State) (ks : List Keys) :
    (s.presentKeys ks).keyIn = s.keyIn ++ ks := rfl
@[simp] theorem State.presentKeys_rndIn (s : State) (ks : List Keys) :
    (s.presentKeys ks).rndIn = s.rndIn := rfl
@[simp] theorem State.presentKeys_rndDraws (s : State) (ks : List Keys) :
    (s.presentKeys ks).rndDraws = s.rndDraws := rfl
@[simp] theorem State.presentKeys_font (s : State) (ks : List Keys) :
    (s.presentKeys ks).font = s.font := rfl
@[simp] theorem State.presentKeys_shiftSrc (s : State) (ks : List Keys) :
    (s.presentKeys ks).shiftSrc = s.shiftSrc := rfl
@[simp] theorem State.presentKeys_result (s : State) (ks : List Keys) :
    (s.presentKeys ks).result = s.result := rfl
@[simp] theorem State.presentKeys_beep (s : State) (ks : List Keys) :
    (s.presentKeys ks).beep = s.beep := rfl
@[simp] theorem State.presentKeys_unknown (s : State) (ks : List Keys) :
    (s.presentKeys ks).unknown = s.unknown := rfl

/-! ### presentRnd -/

@[simp] theorem State.presentRnd_mem (s : State) (bs : List Byte) :
    (s.presentRnd bs).mem = s.mem := rfl
@[simp] theorem State.presentRnd_x (s : State) (bs : List Byte) : (s.presentRnd bs).x = s.x := rfl
@[simp] theorem State.presentRnd_I (s : State) (bs : List Byte) : (s.presentRnd bs).I = s.I := rfl
@[simp] theorem State.presentRnd_pc (s : State) (bs : List Byte) :
    (s.presentRnd bs).pc = s.pc := rfl
@[simp] theorem State.presentRnd_stack (s : State) (bs : List Byte) :
    (s.presentRnd bs).stack = s.stack := rfl
@[simp] theorem State.presentRnd_SP (s : State) (bs : List Byte) :
    (s.presentRnd bs).SP = s.SP := rfl
@[simp] theorem State.presentRnd_DT (s : State) (bs : List Byte) :
    (s.presentRnd bs).DT = s.DT := rfl
@[simp] theorem State.presentRnd_ST (s : State) (bs : List Byte) :
    (s.presentRnd bs).ST = s.ST := rfl
@[simp] theorem State.presentRnd_FB (s : State) (bs : List Byte) :
    (s.presentRnd bs).FB = s.FB := rfl
@[simp] theorem State.presentRnd_redraw (s : State) (bs : List Byte) :
    (s.presentRnd bs).redraw = s.redraw := rfl
@[simp] theorem State.presentRnd_fault (s : State) (bs : List Byte) :
    (s.presentRnd bs).fault = s.fault := rfl
@[simp] theorem State.presentRnd_faultCause (s : State) (bs : List Byte) :
    (s.presentRnd bs).faultCause = s.faultCause := rfl
@[simp] theorem State.presentRnd_faultPc (s : State) (bs : List Byte) :
    (s.presentRnd bs).faultPc = s.faultPc := rfl
@[simp] theorem State.presentRnd_key (s : State) (bs : List Byte) :
    (s.presentRnd bs).key = s.key := rfl
@[simp] theorem State.presentRnd_keyIn (s : State) (bs : List Byte) :
    (s.presentRnd bs).keyIn = s.keyIn := rfl
@[simp] theorem State.presentRnd_rndIn (s : State) (bs : List Byte) :
    (s.presentRnd bs).rndIn = s.rndIn ++ bs := rfl
@[simp] theorem State.presentRnd_rndDraws (s : State) (bs : List Byte) :
    (s.presentRnd bs).rndDraws = s.rndDraws := rfl
@[simp] theorem State.presentRnd_font (s : State) (bs : List Byte) :
    (s.presentRnd bs).font = s.font := rfl
@[simp] theorem State.presentRnd_shiftSrc (s : State) (bs : List Byte) :
    (s.presentRnd bs).shiftSrc = s.shiftSrc := rfl
@[simp] theorem State.presentRnd_result (s : State) (bs : List Byte) :
    (s.presentRnd bs).result = s.result := rfl
@[simp] theorem State.presentRnd_beep (s : State) (bs : List Byte) :
    (s.presentRnd bs).beep = s.beep := rfl
@[simp] theorem State.presentRnd_unknown (s : State) (bs : List Byte) :
    (s.presentRnd bs).unknown = s.unknown := rfl

/-! ### hostReset -/

@[simp] theorem State.hostReset_mem (s : State) : (s.hostReset).mem = State.reset.mem := rfl
@[simp] theorem State.hostReset_x (s : State) : (s.hostReset).x = State.reset.x := rfl
@[simp] theorem State.hostReset_I (s : State) : (s.hostReset).I = State.reset.I := rfl
@[simp] theorem State.hostReset_pc (s : State) : (s.hostReset).pc = State.reset.pc := rfl
@[simp] theorem State.hostReset_stack (s : State) : (s.hostReset).stack = State.reset.stack := rfl
@[simp] theorem State.hostReset_SP (s : State) : (s.hostReset).SP = State.reset.SP := rfl
@[simp] theorem State.hostReset_DT (s : State) : (s.hostReset).DT = State.reset.DT := rfl
@[simp] theorem State.hostReset_ST (s : State) : (s.hostReset).ST = State.reset.ST := rfl
@[simp] theorem State.hostReset_FB (s : State) : (s.hostReset).FB = State.reset.FB := rfl
@[simp] theorem State.hostReset_redraw (s : State) :
    (s.hostReset).redraw = State.reset.redraw := rfl
@[simp] theorem State.hostReset_fault (s : State) : (s.hostReset).fault = State.reset.fault := rfl
@[simp] theorem State.hostReset_faultCause (s : State) :
    (s.hostReset).faultCause = State.reset.faultCause := rfl
@[simp] theorem State.hostReset_faultPc (s : State) :
    (s.hostReset).faultPc = State.reset.faultPc := rfl
@[simp] theorem State.hostReset_key (s : State) : (s.hostReset).key = State.reset.key := rfl
@[simp] theorem State.hostReset_keyIn (s : State) : (s.hostReset).keyIn = s.keyIn := rfl
@[simp] theorem State.hostReset_rndIn (s : State) : (s.hostReset).rndIn = s.rndIn := rfl
@[simp] theorem State.hostReset_rndDraws (s : State) : (s.hostReset).rndDraws = s.rndDraws := rfl
@[simp] theorem State.hostReset_font (s : State) : (s.hostReset).font = s.font := rfl
@[simp] theorem State.hostReset_shiftSrc (s : State) : (s.hostReset).shiftSrc = s.shiftSrc := rfl
@[simp] theorem State.hostReset_result (s : State) :
    (s.hostReset).result = State.reset.result := rfl
@[simp] theorem State.hostReset_beep (s : State) : (s.hostReset).beep = State.reset.beep := rfl
@[simp] theorem State.hostReset_unknown (s : State) :
    (s.hostReset).unknown = State.reset.unknown := rfl

/-! ### Storing consecutive bytes -/

/-- Storing bytes changes memory only. -/
theorem State.storeBytes_frame (s : State) (a : Word) (l : List Byte) :
    s.storeBytes a l = { s with mem := (s.storeBytes a l).mem } := by
  induction l generalizing s a with
  | nil => rfl
  | cons v l ih =>
    simp only [State.storeBytes]
    rw [ih]
    rfl

/-- A byte outside the addresses stored to. -/
theorem State.storeBytes_other (s : State) (a : Word) (l : List Byte) (c : Word)
    (h : ∀ j, j < l.length → memIndex c ≠ memIndex (a + BitVec.ofNat 16 j)) :
    (s.storeBytes a l).loadByte c = s.loadByte c := by
  induction l generalizing s a with
  | nil => rfl
  | cons v l ih =>
    simp only [State.storeBytes]
    rw [ih, State.loadByte_storeByte, if_neg]
    · simpa using h 0 (by simp)
    · intro j hj
      have := h (j + 1) (by simpa using hj)
      convert this using 2
      apply BitVec.eq_of_toNat_eq
      simp [BitVec.toNat_add]
      omega

/-- The j-th byte stored. -/
theorem State.storeBytes_at (s : State) (a : Word) (l : List Byte) (hl : l.length ≤ 4096) (j : Nat)
    (h : j < l.length) : (s.storeBytes a l).loadByte (a + BitVec.ofNat 16 j) = l[j] := by
  induction l generalizing s a j with
  | nil => simp at h
  | cons v l ih =>
    simp only [List.length_cons] at h hl
    simp only [State.storeBytes]
    cases j with
    | zero =>
      rw [State.storeBytes_other]
      · rw [State.loadByte_storeByte]
        simp
      · intro k hk
        have h1 : BitVec.toNat (1 : Word) = 1 := rfl
        simp only [memIndex, BitVec.toNat_add, BitVec.toNat_ofNat, h1]
        omega
    | succ j =>
      rw [List.getElem_cons_succ, ← ih (s.storeByte a v) (a + 1) (by omega) j (by omega)]
      congr 1
      apply BitVec.eq_of_toNat_eq
      simp [BitVec.toNat_add]
      omega

/-- Storing bytes keeps the canonical form of memory. -/
theorem State.storeBytes_wf {s : State} (a : Word) (l : List Byte) (h : Memory.wf s.font s.mem) :
    Memory.wf (s.storeBytes a l).font (s.storeBytes a l).mem := by
  induction l generalizing s a with
  | nil => exact h
  | cons v l ih => exact ih (a + 1) (State.storeByte_wf a v h)

end Sys2Proof.Machine
end

