-- ==== Sys2Proof/Tests/Slice0.lean ====
section
/-! SUPPORT. Tests whose expected values are the vectors of spec/95_test_vectors.md, decoding tests from words
written out from spec/30_encoding.md, the well-formedness checks, and a witness for the hypotheses of every
statement that has some. -/

namespace Sys2Proof.Tests

open Sys2Proof Sys2Proof.Machine

/-! ## Helpers -/

/-- The state an outcome answers, if it is a next state. -/
def after : Host.Outcome State Fault Refusal → Option State
  | .next t => some t
  | .fault _ => none
  | .refused _ => none

/-- The reset state with general registers preset. -/
def preset (regs : List (Reg × Byte)) : State :=
  regs.foldl (fun s p => s.setReg p.1 p.2) State.reset

/-- One cycle on a word placed at `pc`. -/
def cycle (s : State) (w : Nat) : Option State := after (step (s.withFetchWord 16 w))

/-- The first `n` rows of the framebuffer as 64-bit numbers, column 0 the highest bit. -/
def bitmap (n : Nat) (t : State) : List Nat :=
  (t.FB.toList.take n).map fun row => row.toList.foldl (fun v p => 2 * v + p.toNat) 0

/-- The framebuffer with some pixels set. -/
def screen (pixels : List (Fin 32 × Fin 64)) : Framebuffer :=
  pixels.foldl (fun fb p => fb.toggle p.1 p.2) Framebuffer.clear

/-- An outcome whose next state meets a test is a next state that meets it. -/
theorem exists_next {o : Host.Outcome State Fault Refusal} (p : State → Bool)
    (h : (after o).any p = true) : ∃ t, o = .next t ∧ p t = true := by
  cases o with
  | next t => exact ⟨t, rfl, h⟩
  | fault r => cases r
  | refused r => cases h

/-! ## Well-formedness: each bound is checked -/

theorem test_illformed_address : (RawOperands.addr 4096).wellFormed = false := by decide
theorem test_illformed_byte_register : (RawOperands.regByte 16 0).wellFormed = false := by decide
theorem test_illformed_byte : (RawOperands.regByte 0 256).wellFormed = false := by decide
theorem test_illformed_pair_first : (RawOperands.regReg 16 0).wellFormed = false := by decide
theorem test_illformed_pair_second : (RawOperands.regReg 0 16).wellFormed = false := by decide
theorem test_illformed_draw_first : (RawOperands.regRegNibble 16 0 0).wellFormed = false := by decide
theorem test_illformed_draw_second : (RawOperands.regRegNibble 0 16 0).wellFormed = false := by decide
theorem test_illformed_draw_rows : (RawOperands.regRegNibble 0 0 16).wellFormed = false := by decide
theorem test_illformed_register : (RawOperands.reg 16).wellFormed = false := by decide
theorem test_wellformed_bounds :
    RawOperands.fix.wellFormed ∧ (RawOperands.addr 4095).wellFormed ∧
    (RawOperands.regByte 15 255).wellFormed ∧ (RawOperands.regReg 15 15).wellFormed ∧
    (RawOperands.regRegNibble 15 15 15).wellFormed ∧ (RawOperands.reg 15).wellFormed := by decide

/-! ## Decoding: one word per instruction, bit by bit from 30_encoding.md sections 2 and 3 -/

theorem test_decode_class0 :
    decodeTableWord 16 0b0000000011100000 = some .cls ∧
    decodeTableWord 16 0b0000000011101110 = some .ret := by decide
theorem test_decode_jumps :
    decodeTableWord 16 0b0001101010111100 = some (.jp 0xABC) ∧
    decodeTableWord 16 0b0010001100000000 = some (.call 0x300) ∧
    decodeTableWord 16 0b1011001100000000 = some (.jpo 0x300) := by decide
theorem test_decode_skips :
    decodeTableWord 16 0b0011001100101010 = some (.sei 3 0x2A) ∧
    decodeTableWord 16 0b0100001100101010 = some (.snei 3 0x2A) ∧
    decodeTableWord 16 0b0101000100100000 = some (.ser 1 2) ∧
    decodeTableWord 16 0b1001000100100000 = some (.sner 1 2) := by decide
theorem test_decode_immediates :
    decodeTableWord 16 0b0110010010101011 = some (.ldb 4 0xAB) ∧
    decodeTableWord 16 0b0111001100000101 = some (.addb 3 0x05) ∧
    decodeTableWord 16 0b1100010100001111 = some (.rnd 5 0x0F) ∧
    decodeTableWord 16 0b1010001011110000 = some (.ldi 0x2F0) := by decide
theorem test_decode_class8_low :
    decodeTableWord 16 0b1000000100100000 = some (.mov 1 2) ∧
    decodeTableWord 16 0b1000000100100001 = some (.or 1 2) ∧
    decodeTableWord 16 0b1000000100100010 = some (.and 1 2) ∧
    decodeTableWord 16 0b1000000100100011 = some (.xor 1 2) ∧
    decodeTableWord 16 0b1000101010110100 = some (.add 0xA 0xB) := by decide
theorem test_decode_class8_high :
    decodeTableWord 16 0b1000000100100101 = some (.sub 1 2) ∧
    decodeTableWord 16 0b1000000100100110 = some (.shr 1 2) ∧
    decodeTableWord 16 0b1000000100100111 = some (.subn 1 2) ∧
    decodeTableWord 16 0b1000000100101110 = some (.shl 1 2) := by decide
theorem test_decode_draw : decodeTableWord 16 0b1101011110100101 = some (.drw 7 0xA 5) := by decide
theorem test_decode_keys :
    decodeTableWord 16 0b1110010110011110 = some (.skp 5) ∧
    decodeTableWord 16 0b1110010110100001 = some (.sknp 5) ∧
    decodeTableWord 16 0b1111001100001010 = some (.wkey 3) := by decide
theorem test_decode_timers :
    decodeTableWord 16 0b1111001000000111 = some (.gdt 2) ∧
    decodeTableWord 16 0b1111001000010101 = some (.sdt 2) ∧
    decodeTableWord 16 0b1111001000011000 = some (.sst 2) := by decide
theorem test_decode_classF_memory :
    decodeTableWord 16 0b1111000000011110 = some (.addi 0) ∧
    decodeTableWord 16 0b1111010000101001 = some (.ldf 4) ∧
    decodeTableWord 16 0b1111010100110011 = some (.bcd 5) ∧
    decodeTableWord 16 0b1111001001010101 = some (.dump 2) ∧
    decodeTableWord 16 0b1111001001100101 = some (.load 2) := by decide
/-- C3, C4, C5, C6: the neighbours of recognised words. -/
theorem test_decode_unrecognised :
    ([0x00EF, 0x00E1, 0x0EE0, 0x00FE, 0x0FFF, 0x01E0, 0x8128, 0x8129, 0x812D, 0x812F, 0xE09F, 0xE0A0,
      0xE1FF, 0xE2E0, 0xF000, 0xF106, 0xF20B, 0xF31F, 0xF434, 0xF556, 0xF666, 0xF7FF].all
      fun w => (decodeTableWord 16 w).isNone) = true := by decide

/-! ## Control transfer -/

/-- F1, F3. -/
theorem test_jp :
    (cycle State.reset 0x1ABC).map (·.pc) = some 0x0ABC ∧
    (cycle State.reset 0x1203).map (·.pc) = some 0x0203 := by decide
/-- F5. -/
theorem test_call_to_the_last_entry :
    (cycle { State.reset with SP := 15 } 0x2400).map (fun t => (t.stack[15], t.SP, t.pc)) =
      some (0x0200, 16, 0x0400) := by decide
/-- F6. -/
theorem test_call_overflow :
    (cycle { State.reset with SP := 16, DT := 3 } 0x2400).map
      (fun t => ((t.result, t.fault, t.faultCause, t.faultPc), t.SP, t.pc, t.DT)) =
      some ((some .faulted, true, some .stackOverflow, 0x0200), 16, 0x0200, 3) := by decide
/-- F7, F9. -/
theorem test_ret :
    (cycle { State.reset with SP := 1, stack := State.reset.stack.set 0 0x0204, pc := 0x0300 } 0x00EE).map
      (fun t => (t.SP, t.pc, t.stack[0])) = some (0, 0x0206, 0x0204) ∧
    (cycle { State.reset with SP := 1, stack := State.reset.stack.set 0 0xFFFE } 0x00EE).map (·.pc) =
      some 0x0000 := by decide
/-- F8. -/
theorem test_ret_underflow :
    (cycle { State.reset with ST := 1 } 0x00EE).map
      (fun t => (t.result, t.fault, t.faultCause, t.faultPc)) =
      some (some .faulted, true, some .stackUnderflow, 0x0200) ∧
    (cycle { State.reset with ST := 1 } 0x00EE).map (fun t => (t.SP, t.pc, t.ST, t.beep)) =
      some (0, 0x0200, 1, false) := by decide
/-- F10, F11, F25. -/
theorem test_sei :
    (cycle (preset [(3, 0x2A)]) 0x332A).map (·.pc) = some 0x0204 ∧
    (cycle (preset [(3, 0x2B)]) 0x332A).map (·.pc) = some 0x0202 ∧
    (cycle (preset [(0xF, 0x01)]) 0x3F01).map (·.pc) = some 0x0204 := by decide
/-- F12, F13. -/
theorem test_snei :
    (cycle (preset [(3, 0x2A)]) 0x432A).map (·.pc) = some 0x0202 ∧
    (cycle (preset [(3, 0x00)]) 0x432A).map (·.pc) = some 0x0204 := by decide
/-- F15, F16, F17. -/
theorem test_ser :
    (cycle (preset [(1, 7), (2, 8)]) 0x5120).map (·.pc) = some 0x0202 ∧
    (cycle (preset [(1, 7), (2, 7)]) 0x5127).map (fun t => (t.pc, t.unknown)) = some (0x0204, none) ∧
    (cycle (preset [(4, 9)]) 0x5440).map (·.pc) = some 0x0204 := by decide
/-- F19, F20. -/
theorem test_sner :
    (cycle (preset [(1, 7), (2, 7)]) 0x9120).map (·.pc) = some 0x0202 ∧
    (cycle (preset [(1, 7), (2, 8)]) 0x912F).map (fun t => (t.pc, t.unknown)) = some (0x0204, none) := by
  decide
/-- F23, F24. -/
theorem test_jpo :
    (cycle (preset [(0, 0xFF)]) 0xBFFF).map (·.pc) = some 0x10FE ∧
    (cycle (preset [(0, 0x01), (3, 0x55)]) 0xB300).map (·.pc) = some 0x0301 := by decide

/-! ## Registers, arithmetic and logic -/

/-- A1, A2. -/
theorem test_ldb :
    (cycle (preset [(4, 0x99)]) 0x64AB).map (fun t => (t.reg 4, t.pc)) = some (0xAB, 0x0202) ∧
    (cycle State.reset 0x6F7E).map (·.reg 0xF) = some 0x7E := by decide
/-- A4, A5. -/
theorem test_addb :
    (cycle (preset [(3, 0xFE), (0xF, 0x5A)]) 0x7305).map (fun t => (t.reg 3, t.reg 0xF)) =
      some (0x03, 0x5A) ∧
    (cycle (preset [(0xF, 0xFF)]) 0x7F02).map (·.reg 0xF) = some 0x01 := by decide
/-- A6. -/
theorem test_mov :
    (cycle (preset [(1, 0x11), (2, 0x22), (0xF, 0x5A)]) 0x8120).map
      (fun t => (t.reg 1, t.reg 2, t.reg 0xF)) = some (0x22, 0x22, 0x5A) := by decide
/-- A7. -/
theorem test_or :
    (cycle (preset [(1, 0xF0), (2, 0x3C), (0xF, 0x5A)]) 0x8121).map (fun t => (t.reg 1, t.reg 0xF)) =
      some (0xFC, 0x5A) := by decide
/-- A8. -/
theorem test_and :
    (cycle (preset [(1, 0xF0), (2, 0x3C), (0xF, 0x5A)]) 0x8122).map (fun t => (t.reg 1, t.reg 0xF)) =
      some (0x30, 0x5A) := by decide
/-- A9, A10. -/
theorem test_xor :
    (cycle (preset [(1, 0xF0), (2, 0x3C), (0xF, 0x5A)]) 0x8123).map (fun t => (t.reg 1, t.reg 0xF)) =
      some (0xCC, 0x5A) ∧
    (cycle (preset [(1, 0x77)]) 0x8113).map (·.reg 1) = some 0x00 := by decide
/-- A11, A12, A15. -/
theorem test_add_carry :
    (cycle (preset [(1, 0xFF), (2, 0x01)]) 0x8124).map (fun t => (t.reg 1, t.reg 0xF)) = some (0x00, 1) ∧
    (cycle (preset [(1, 0xFE), (2, 0x01)]) 0x8124).map (fun t => (t.reg 1, t.reg 0xF)) = some (0xFF, 0) ∧
    (cycle (preset [(0xF, 0x5A)]) 0x8124).map (fun t => (t.reg 1, t.reg 0xF)) = some (0x00, 0) := by
  decide
/-- A17, A18: `x[0xF]` as an operand. -/
theorem test_add_flag_operand :
    (cycle (preset [(0xF, 0xFF), (1, 0x01)]) 0x8F14).map (·.reg 0xF) = some 0x02 ∧
    (cycle (preset [(3, 0xFE), (0xF, 0x02)]) 0x83F4).map (fun t => (t.reg 3, t.reg 0xF)) =
      some (0xFF, 1) := by decide
/-- A19, A20, A21. -/
theorem test_sub :
    (cycle (preset [(1, 0x01), (2, 0x02)]) 0x8125).map (fun t => (t.reg 1, t.reg 0xF)) = some (0xFF, 0) ∧
    (cycle (preset [(1, 0x02), (2, 0x01)]) 0x8125).map (fun t => (t.reg 1, t.reg 0xF)) = some (0x01, 1) ∧
    (cycle (preset [(1, 0x05), (2, 0x05)]) 0x8125).map (fun t => (t.reg 1, t.reg 0xF)) = some (0x00, 1) := by
  decide
/-- A25, A26, A27. -/
theorem test_subn :
    (cycle (preset [(1, 0x01), (2, 0x02)]) 0x8127).map (fun t => (t.reg 1, t.reg 0xF)) = some (0x01, 1) ∧
    (cycle (preset [(1, 0x02), (2, 0x01)]) 0x8127).map (fun t => (t.reg 1, t.reg 0xF)) = some (0xFF, 0) ∧
    (cycle (preset [(1, 0x05), (2, 0x05)]) 0x8127).map (fun t => (t.reg 1, t.reg 0xF)) = some (0x00, 1) := by
  decide
/-- A30, A35, A43. -/
theorem test_shr_from_x :
    (cycle (preset [(1, 0x05), (2, 0x33)]) 0x8126).map (fun t => (t.reg 1, t.reg 0xF, t.reg 2)) =
      some (0x02, 1, 0x33) ∧
    (cycle (preset [(1, 0x81)]) 0x8126).map (fun t => (t.reg 1, t.reg 0xF)) = some (0x40, 1) ∧
    (cycle (preset [(0xF, 0x03)]) 0x8F06).map (·.reg 0xF) = some 0x00 := by decide
/-- A41. -/
theorem test_shr_from_y :
    (cycle { preset [(1, 0xAA), (2, 0x33)] with shiftSrc := .Y } 0x8126).map
      (fun t => (t.reg 1, t.reg 0xF, t.reg 2)) = some (0x19, 1, 0x33) := by decide
/-- A36, A39, A44. -/
theorem test_shl_from_x :
    (cycle (preset [(1, 0x05)]) 0x812E).map (fun t => (t.reg 1, t.reg 0xF)) = some (0x0A, 0) ∧
    (cycle (preset [(1, 0x81)]) 0x812E).map (fun t => (t.reg 1, t.reg 0xF)) = some (0x02, 1) ∧
    (cycle (preset [(0xF, 0x81)]) 0x8F0E).map (·.reg 0xF) = some 0x02 := by decide
/-- A42. -/
theorem test_shl_from_y :
    (cycle { preset [(1, 0xAA), (2, 0xC3)] with shiftSrc := .Y } 0x812E).map
      (fun t => (t.reg 1, t.reg 0xF, t.reg 2)) = some (0x86, 1, 0xC3) := by decide
/-- A45, A46. -/
theorem test_rnd :
    (cycle { State.reset with rndIn := [0xB7] } 0xC50F).map (fun t => (t.reg 5, t.rndIn)) =
      some (0x07, []) ∧
    (cycle { State.reset with rndIn := [0xB7] } 0xC5FF).map (·.reg 5) = some 0xB7 := by decide
/-- A47, with no byte ready: the mask 0 gives 0 whatever the free byte is, and a byte is still drawn. -/
theorem test_rnd_mask_zero :
    ∃ t, step ((preset [(5, 0x99)]).withFetchWord 16 0xC500) = .next t ∧ t.reg 5 = 0 ∧ t.rndDraws = 1 :=
  ⟨_, rfl, BitVec.and_zero, rfl⟩

/-! ## Index register and memory -/

/-- M1, M2. -/
theorem test_ldi :
    (cycle { State.reset with I := 0x0123 } 0xA2F0).map (·.I) = some 0x02F0 ∧
    (cycle { State.reset with I := 0x1003 } 0xA000).map (·.I) = some 0x0000 := by decide
/-- M3, M4. -/
theorem test_addi_flag :
    (cycle { preset [(0, 5)] with I := 0x0FFE } 0xF01E).map (fun t => (t.I, t.reg 0xF)) =
      some (0x1003, 1) ∧
    (cycle { preset [(0, 5), (0xF, 0x5A)] with I := 0x0FFA } 0xF01E).map (fun t => (t.I, t.reg 0xF)) =
      some (0x0FFF, 0) := by decide
/-- M7, M9. -/
theorem test_addi_wrap_and_flag_operand :
    (cycle { preset [(0, 2)] with I := 0xFFFF } 0xF01E).map (fun t => (t.I, t.reg 0xF)) =
      some (0x0001, 1) ∧
    (cycle { preset [(0xF, 7)] with I := 0x0FFE } 0xFF1E).map (fun t => (t.I, t.reg 0xF)) =
      some (0x1005, 1) := by decide
/-- M12, M15. -/
theorem test_ldf :
    (cycle (preset [(4, 0x0A)]) 0xF429).map (·.I) = some 0x0082 ∧
    (cycle (preset [(4, 0xFF)]) 0xF429).map (·.I) = some 0x054B := by decide
/-- M16. -/
theorem test_bcd :
    (cycle { preset [(2, 156)] with I := 0x0300 } 0xF233).map
      (fun t => (t.loadByte 0x300, t.loadByte 0x301, t.loadByte 0x302, t.I)) =
      some (1, 5, 6, 0x0300) := by decide
/-- M22. -/
theorem test_bcd_wraps :
    (cycle { preset [(2, 123)] with I := 0x0FFE } 0xF233).map
      (fun t => (t.loadByte 0xFFE, t.loadByte 0xFFF, t.loadByte 0x000, t.I)) =
      some (1, 2, 3, 0x0FFE) := by decide
/-- M23. -/
theorem test_dump :
    (cycle { preset [(0, 0x11), (1, 0x22), (2, 0x33), (3, 0x44)] with I := 0x0400 } 0xF255).map
      (fun t => ([0x400, 0x401, 0x402, 0x403].map t.loadByte, t.I)) =
      some ([0x11, 0x22, 0x33, 0x00], 0x0400) := by decide
/-- M26, M27. -/
theorem test_dump_wraps :
    (cycle { preset [(0, 0xAA), (1, 0xBB)] with I := 0x0FFF } 0xF155).map
      (fun t => (t.loadByte 0xFFF, t.loadByte 0x000)) = some (0xAA, 0xBB) ∧
    (cycle { preset [(0, 0x77)] with I := 0x1400 } 0xF055).map (fun t => (t.loadByte 0x400, t.I)) =
      some (0x77, 0x1400) := by decide
/-- M28. -/
theorem test_load :
    (cycle { preset [(0, 0xEE), (1, 0xEE), (2, 0xEE), (3, 0xEE)] with I := 0x0050 } 0xF265).map
      (fun t => ([0, 1, 2, 3].map t.reg, t.I)) = some ([0xF0, 0x90, 0x90, 0xEE], 0x0050) := by decide
/-- M30: all sixteen registers, from the default `FONT`. -/
theorem test_load_all :
    (cycle { State.reset with I := 0x0055 } 0xFF65).map (fun t => t.x.toList) =
      some [0x20, 0x60, 0x20, 0x20, 0x70, 0xF0, 0x10, 0xF0, 0x80, 0xF0, 0xF0, 0x10, 0xF0, 0x10, 0xF0,
        0x90] := by decide

/-! ## Display -/

/-- D12. -/
theorem test_cls :
    (cycle { preset [(0xF, 0x5A)] with FB := screen [(0, 0), (31, 63)] } 0x00E0).map
      (fun t => (bitmap 32 t, t.redraw, t.reg 0xF, t.pc)) =
      some (List.replicate 32 0, true, 0x5A, 0x0202) := by decide
/-- D1. -/
theorem test_drw_glyph :
    (cycle { preset [(0xF, 0x5A)] with I := 0x0050 } 0xD015).map (fun t => (t.reg 0xF, t.redraw)) =
      some (0, true) ∧
    (cycle { preset [(0xF, 0x5A)] with I := 0x0050 } 0xD015).map (bitmap 6) =
      some [0xF000000000000000, 0x9000000000000000, 0x9000000000000000, 0x9000000000000000,
        0xF000000000000000, 0] := by decide
/-- D3, D5, D6: the column is clamped, the row is clamped, the start coordinates are reduced. -/
theorem test_drw_clamps :
    (cycle ({ preset [(0, 62)] with I := 0x0300 }.storeBytes 0x300 [0xF0]) 0xD011).map
      (fun t => (bitmap 2 t, t.reg 0xF)) = some ([3, 0], 1) ∧
    (cycle ({ preset [(1, 30)] with I := 0x0300 }.storeBytes 0x300 [0x80, 0x80, 0x80]) 0xD013).map
      (fun t => ((bitmap 32 t).drop 29, t.reg 0xF)) = some ([0, 0x8000000000000000, 0], 1) ∧
    (cycle ({ preset [(0, 70), (1, 33)] with I := 0x0300 }.storeBytes 0x300 [0xFF]) 0xD011).map
      (fun t => (bitmap 3 t, t.reg 0xF)) = some ([0, 0x03FC000000000000, 0], 0) := by decide

/-! ## Keys and timers -/

/-- K1, K3, K4. -/
theorem test_skp :
    (cycle { preset [(5, 0x07)] with keyIn := [1 <<< 7] } 0xE59E).map (·.pc) = some 0x0204 ∧
    (cycle { preset [(5, 0x1A)] with keyIn := [1 <<< 10] } 0xE59E).map (·.pc) = some 0x0204 ∧
    (cycle { preset [(5, 0x07)] with keyIn := [1 <<< 6 ||| 1 <<< 8] } 0xE59E).map (·.pc) =
      some 0x0202 := by decide
/-- K5, K7. -/
theorem test_sknp :
    (cycle (preset [(5, 0x07)]) 0xE5A1).map (·.pc) = some 0x0204 ∧
    (cycle { preset [(5, 0xF0)] with keyIn := [1] } 0xE5A1).map (·.pc) = some 0x0202 := by decide
/-- K9, and V7 for the sound timer and the event. -/
theorem test_wkey_waits :
    (cycle { State.reset with DT := 9, ST := 1 } 0xF30A).map
      (fun t => (t.result, t.pc, t.DT, t.ST, t.reg 3, t.beep)) =
      some (some .waiting, 0x0200, 9, 1, 0, false) := by decide
/-- K10, K11, K12. -/
theorem test_wkey_takes_highest :
    (cycle { State.reset with DT := 9, keyIn := [1 <<< 4 ||| 1 <<< 11] } 0xF30A).map
      (fun t => (t.result, t.pc, t.DT, t.reg 3)) = some (some .advanced, 0x0202, 8, 0x0B) ∧
    (cycle { State.reset with keyIn := [1] } 0xF30A).map (fun t => (t.reg 3, t.pc)) =
      some (0x00, 0x0202) ∧
    (cycle { State.reset with keyIn := [0xFFFF] } 0xFF0A).map (·.reg 0xF) = some 0x0F := by decide
/-- K13, K14. -/
theorem test_gdt :
    (cycle { State.reset with DT := 0x10 } 0xF207).map (fun t => (t.reg 2, t.DT)) = some (0x10, 0x0F) ∧
    (cycle State.reset 0xF207).map (fun t => (t.reg 2, t.DT)) = some (0x00, 0) := by decide
/-- K15, K16. -/
theorem test_sdt :
    (cycle (preset [(2, 5)]) 0xF215).map (·.DT) = some 4 ∧
    (cycle { State.reset with DT := 9 } 0xF215).map (·.DT) = some 0 := by decide
/-- K18, K19, K20. -/
theorem test_sst :
    (cycle (preset [(2, 1)]) 0xF218).map (fun t => (t.ST, t.beep)) = some (0, true) ∧
    (cycle (preset [(2, 2)]) 0xF218).map (fun t => (t.ST, t.beep)) = some (1, false) ∧
    (cycle { State.reset with ST := 5 } 0xF218).map (fun t => (t.ST, t.beep)) = some (0, false) := by decide

/-! ## The cycle, the latch and the host's actions -/

/-- K21, K22. -/
theorem test_tick :
    (cycle { State.reset with DT := 1, ST := 1 } 0x6000).map (fun t => (t.DT, t.ST, t.beep)) =
      some (0, 0, true) ∧
    (cycle State.reset 0x6000).map (fun t => (t.DT, t.ST, t.beep)) = some (0, 0, false) := by decide
/-- C1: the first cycle after reset with no image loaded. -/
theorem test_first_cycle_after_reset :
    (after (step State.reset)).map (fun t => (t.unknown, t.pc, t.result)) =
      some (some ⟨0x0000, 0x0200⟩, 0x0202, some .advanced) := by decide
/-- C2, A48. -/
theorem test_unrecognised :
    (cycle { State.reset with DT := 2, ST := 1 } 0x0123).map
      (fun t => (t.unknown, t.beep, t.DT, t.ST, t.pc)) =
      some (some ⟨0x0123, 0x0200⟩, true, 1, 0, 0x0202) ∧
    (cycle (preset [(1, 1), (2, 1)]) 0x8128).map (fun t => (t.unknown, [1, 2, 0xF].map t.reg)) =
      some (some ⟨0x8128, 0x0200⟩, [1, 1, 0]) := by decide
/-- C7. -/
theorem test_halted :
    (cycle { State.reset with fault := true, faultCause := some .stackOverflow, DT := 3, ST := 1 } 0x6012).map
      (fun t => ((t.result, t.pc, t.reg 0), t.DT, t.ST, t.beep, t.fault)) =
      some ((some .halted, 0x0200, 0), 3, 1, false, true) := by decide
/-- C8, C9, C10: fetching across the end of memory, at an odd `pc`, at the top of the address range. -/
theorem test_fetch_edges :
    (cycle { State.reset with pc := 0x0FFF } 0x602A).map
      (fun t => (t.reg 0, t.pc, t.loadByte 0xFFF, t.loadByte 0x000)) =
      some (0x2A, 0x1001, 0x60, 0x2A) ∧
    (cycle { State.reset with pc := 0x0201 } 0x6107).map (fun t => (t.reg 1, t.pc)) =
      some (0x07, 0x0203) ∧
    (cycle { State.reset with pc := 0xFFFE } 0x6001).map (fun t => (t.reg 0, t.pc)) =
      some (0x01, 0x0000) := by decide
/-- V1 (a), (d). -/
theorem test_load_image :
    ((State.reset.loadImage [0x12, 0x00]).toOption.map fun t => (t.loadByte 0x200, t.mem)) =
      some (0x12, [(0x200, 0x12)]) ∧
    ((State.reset.loadImage []).toOption.map (·.mem)) = some [] := by decide
/-- V1 (c). -/
theorem test_load_image_too_large :
    State.reset.loadImage (List.replicate 3584 0xAB) = .error .imageTooLarge := by
  unfold State.loadImage
  rw [if_neg]
  rw [List.length_replicate]
  decide
/-- P2, the last sentence: the host's acknowledgement clears `redraw`. -/
theorem test_ack_redraw : { State.reset with redraw := true }.ackRedraw.redraw = false := by decide

/-! ## Witnesses: for each statement with hypotheses, states and operands that meet them, for each clause at a
boundary of its range -/

theorem witness_LoadImagePlacesBytes :
    ([] : List Byte).length ≤ 3583 ∧ (List.replicate 3583 (0xAB : Byte)).length ≤ 3583 ∧
    3583 < (List.replicate 3584 (0xAB : Byte)).length := by
  rw [List.length_replicate, List.length_replicate]
  decide

theorem witness_RedrawClearedOnlyByAcknowledge :
    { State.reset with redraw := true }.redraw = true ∧
    ∃ t, step ({ State.reset with redraw := true }.withFetchWord 16 0x6012) = .next t ∧ (t.redraw : Bool) :=
  ⟨rfl, exists_next _ (by decide)⟩

theorem witness_DecodedWordIsItsEncoding :
    decode 0x8AB4 = .ok (.add 0xA 0xB) ∧ decode 0x5127 = .ok (.ser 1 2) ∧
    decode 0x912F = .ok (.sner 1 2) := by decide

theorem witness_UnrecognisedWordReportsAndAdvances :
    (∃ e, decode 0x00E1 = .error e) ∧ (∃ e, decode 0x812F = .error e) ∧ unrecognised 0x00E1 ∧
    unrecognised 0x8128 ∧ unrecognised 0x812D ∧ unrecognised 0x812F ∧ unrecognised 0xE09F ∧
    unrecognised 0xF2FF ∧ State.reset.fault = false ∧ unrecognised State.reset.fetch := by
  refine ⟨⟨_, rfl⟩, ⟨_, rfl⟩, ?_, ?_, ?_, ?_, ?_, ?_, rfl, ?_⟩ <;>
    unfold unrecognised <;> dsimp only <;> decide

theorem witness_FetchIsBigEndian :
    (0x1400 : Word).toNat % 4096 = (0x400 : Word).toNat % 4096 ∧
    { State.reset with pc := 0x0FFF }.pc.toNat % 4096 = 0xFFF ∧
    { State.reset with pc := 0xFFFF }.pc.toNat % 4096 = 0xFFF := by decide

theorem witness_StepRunsDecodedInstruction :
    (State.reset.withFetchWord 16 0x6012).fault = false ∧
    decode (State.reset.withFetchWord 16 0x6012).fetch = .ok (.ldb 0 0x12) := by decide

theorem witness_TickCountsDown :
    { State.reset with result := some .advanced, ST := 1 }.result = some .advanced ∧
    { State.reset with result := some .advanced, ST := 1 }.beep = false ∧
    { State.reset with result := some .waiting }.result ≠ some .advanced := by decide

/-- An `Advanced` cycle of neither timer instruction, of `SDT`, of `SST`, and one that is not `Advanced`. -/
theorem witness_StepTimersCountPerCompletedCycle :
    (∃ t, step (State.reset.withFetchWord 16 0x6012) = .next t ∧ (t.result == some .advanced)) ∧
    decode (State.reset.withFetchWord 16 0x6012).fetch = .ok (.ldb 0 0x12) ∧
    (∃ t, step (State.reset.withFetchWord 16 0xF015) = .next t ∧ (t.result == some .advanced)) ∧
    decode (State.reset.withFetchWord 16 0xF015).fetch = .ok (.sdt 0) ∧
    (∃ t, step (State.reset.withFetchWord 16 0xF018) = .next t ∧ (t.result == some .advanced)) ∧
    decode (State.reset.withFetchWord 16 0xF018).fetch = .ok (.sst 0) ∧
    (∃ t, step (State.reset.withFetchWord 16 0xF00A) = .next t ∧ (t.result != some .advanced)) :=
  ⟨exists_next _ (by decide), by decide, exists_next _ (by decide), by decide, exists_next _ (by decide),
    by decide, exists_next _ (by decide)⟩

theorem witness_BeepExactlyOnOneToZero :
    (∃ t, step ({ State.reset with ST := 1 }.withFetchWord 16 0x6012) = .next t ∧ (t.beep : Bool)) ∧
    decode ({ State.reset with ST := 1 }.withFetchWord 16 0x6012).fetch = .ok (.ldb 0 0x12) ∧
    (∃ t, step ((preset [(0, 1)]).withFetchWord 16 0xF018) = .next t ∧ (t.beep : Bool)) ∧
    decode ((preset [(0, 1)]).withFetchWord 16 0xF018).fetch = .ok (.sst 0) :=
  ⟨exists_next _ (by decide), by decide, exists_next _ (by decide), by decide⟩

theorem witness_StepKeepsStateInv :
    (State.reset.withFetchWord 16 0xF255).Inv ∧
    ∃ t, step (State.reset.withFetchWord 16 0xF255) = .next t ∧ (t.mem != []) :=
  ⟨by decide, exists_next _ (by decide)⟩

theorem witness_FaultedCoreStaysHalted :
    { State.reset with fault := true, faultCause := some .stackOverflow }.fault = true := by decide

theorem witness_StackConditionLatchesFault :
    ({ State.reset with SP := 16 }.withFetchWord 16 0x2400).fault = false ∧
    decode ({ State.reset with SP := 16 }.withFetchWord 16 0x2400).fetch = .ok (.call 0x400) ∧
    ({ State.reset with SP := 16 }.withFetchWord 16 0x2400).SP.val = 16 ∧
    (State.reset.withFetchWord 16 0x00EE).fault = false ∧
    decode (State.reset.withFetchWord 16 0x00EE).fetch = .ok .ret ∧
    (State.reset.withFetchWord 16 0x00EE).SP.val = 0 := by decide

theorem witness_WaitingRunChangesNothing :
    ({ State.reset with keyIn := [0, 0] }.withFetchWord 16 0xF30A).fault = false ∧
    decode ({ State.reset with keyIn := [0, 0] }.withFetchWord 16 0xF30A).fetch = .ok (.wkey 3) ∧
    ({ State.reset with keyIn := [0, 0] }.withFetchWord 16 0xF30A).key = 0 ∧
    ∀ k ∈ ({ State.reset with keyIn := [0, 0] }.withFetchWord 16 0xF30A).keyIn, k = 0 :=
  ⟨by decide, by decide, by decide, by simp [State.withFetchWord]⟩

theorem witness_DumpOverNextWordIsFetched :
    { State.reset with I := 0x0202 }.I = { State.reset with I := 0x0202 }.pc + 2 ∧
    ∃ t, exec (.dump 1) { State.reset with I := 0x0202 } = .next t := ⟨rfl, _, rfl⟩

theorem witness_PcFollowsTable :
    (∃ t, exec (.jp 0xFFF) State.reset = .next t) ∧ State.reset.fault = false ∧
    (∃ e, decode State.reset.fetch = .error e) ∧ ∃ t, step State.reset = .next t ∧ (t.unknown.isSome : Bool) :=
  ⟨⟨_, rfl⟩, rfl, ⟨.unknownClass0, by decide⟩, exists_next _ (by decide)⟩

theorem witness_OnlyDestinationRegistersChange :
    (∃ t, exec (.add 1 2) State.reset = .next t) ∧ (∃ t, exec (.load 0xF) State.reset = .next t) ∧
    ∃ t, exec .ret State.reset = .next t := ⟨⟨_, rfl⟩, ⟨_, rfl⟩, ⟨_, rfl⟩⟩

theorem witness_OnlyStoredBytesChange :
    (∃ t, exec (.bcd 2) { State.reset with I := 0x0FFE } = .next t) ∧
    (∃ t, exec (.dump 0xF) { State.reset with I := 0x0FFF } = .next t) ∧
    ∃ t, exec .cls State.reset = .next t := ⟨⟨_, rfl⟩, ⟨_, rfl⟩, ⟨_, rfl⟩⟩

theorem witness_OnlyIndexInstructionsWriteI :
    (∃ t, exec (.ldi 0x2F0) State.reset = .next t ∧ (t.I != State.reset.I)) ∧
    (∃ t, exec (.addi 0) (preset [(0, 1)]) = .next t ∧ (t.I != State.reset.I)) ∧
    ∃ t, exec (.ldf 0) State.reset = .next t ∧ (t.I != State.reset.I) :=
  ⟨exists_next _ (by decide), exists_next _ (by decide), exists_next _ (by decide)⟩

theorem witness_OnlyCallAndReturnMoveStack :
    (∃ t, exec (.call 0x400) { State.reset with SP := 15 } = .next t) ∧
    (∃ t, exec (.call 0x400) { State.reset with SP := 16 } = .next t) ∧
    (∃ t, exec .ret { State.reset with SP := 1 } = .next t) ∧ (∃ t, exec .ret State.reset = .next t) ∧
    (∃ t, exec .cls { State.reset with SP := 16 } = .next t) ∧
    (15 : Fin 16).val < { State.reset with SP := 16 }.SP.val :=
  ⟨⟨_, rfl⟩, ⟨_, rfl⟩, ⟨_, rfl⟩, ⟨_, rfl⟩, ⟨_, rfl⟩, by decide⟩

theorem witness_OnlyCallAndReturnRaise :
    (∃ t, exec (.jp 0x200) { State.reset with SP := 16 } = .next t) ∧
    (∀ nnn, Instr.jp 0x200 ≠ .call nnn) ∧ Instr.jp 0x200 ≠ .ret :=
  ⟨⟨_, rfl⟩, nofun, nofun⟩

theorem witness_DisplayAndTimersWrittenByTheirOwn :
    (∃ t, exec (.ldb 0 0) State.reset = .next t) ∧
    (Instr.ldb 0 0 ≠ .cls ∧ (∀ x y n, Instr.ldb 0 0 ≠ .drw x y n)) ∧
    (∀ x, Instr.ldb 0 0 ≠ .sdt x) ∧ (∀ x, Instr.ldb 0 0 ≠ .sst x) ∧
    (∃ t, exec .cls State.reset = .next t) ∧ ∃ t, exec (.drw 0 1 0) State.reset = .next t :=
  ⟨⟨_, rfl⟩, ⟨nofun, nofun⟩, nofun, nofun, ⟨_, rfl⟩, ⟨_, rfl⟩⟩

theorem witness_OnlyKeyInstructionsSeeKeys :
    (∀ x, Instr.gdt 2 ≠ .skp x) ∧ (∀ x, Instr.gdt 2 ≠ .sknp x) ∧ (∀ x, Instr.gdt 2 ≠ .wkey x) ∧
    ∃ t, exec (.gdt 2) State.reset = .next t := ⟨nofun, nofun, nofun, _, rfl⟩

/-- `GDT` meets the clauses for the other instructions, `SST`, `CLS` and `DRW` their own. -/
theorem witness_UnreadableStateIsNotRead :
    (∃ t, exec (.gdt 2) State.reset = .next t) ∧ (∀ x, Instr.gdt 2 ≠ .sst x) ∧ Instr.gdt 2 ≠ .cls ∧
    (∀ x y n, Instr.gdt 2 ≠ .drw x y n) ∧ (∀ nnn, Instr.gdt 2 ≠ .call nnn) ∧ Instr.gdt 2 ≠ .ret ∧
    (∃ t, exec (.sst 0) State.reset = .next t) ∧ (∃ t, exec .cls State.reset = .next t) ∧
    ∃ t, exec (.drw 0 1 0) State.reset = .next t :=
  ⟨⟨_, rfl⟩, nofun, nofun, nofun, nofun, nofun, ⟨_, rfl⟩, ⟨_, rfl⟩, ⟨_, rfl⟩⟩

theorem witness_ReturnPopsAndAddsTwo :
    0 < { State.reset with SP := 1 }.SP.val ∧ 0 < { State.reset with SP := 16 }.SP.val ∧
    State.reset.SP.val = 0 := by decide

theorem witness_CallPushesItsOwnAddress :
    State.reset.SP.val < 16 ∧ { State.reset with SP := 15 }.SP.val < 16 ∧
    { State.reset with SP := 16 }.SP.val = 16 := by decide

theorem witness_ReturnLandsAfterCall :
    { State.reset with SP := 15 }.SP.val < 16 ∧
    ∃ t, ∃ u : State, exec (.call 0x400) { State.reset with SP := 15 } = .next t ∧
      u.SP = t.SP ∧ u.stack = t.stack :=
  ⟨by decide, _, _, rfl, rfl, rfl⟩

/-- X = Y, the clause of `SER` and of `SNER` about one register. -/
theorem witness_SkipOnRegisters : (4 : Reg) = 4 := rfl

/-- A destination other than `x[0xF]`, the clause about the flag. -/
theorem witness_AddSetsCarryThenSum : (0xE : Reg) ≠ 0xF := by decide
theorem witness_SubtractSetsNoBorrowThenDifference : (0 : Reg) ≠ 0xF := by decide
theorem witness_ShiftSetsBitOutThenShift : (0xE : Reg) ≠ 0xF := by decide

theorem witness_RandomAndMasksDrawnByte :
    { State.reset with rndIn := [0xB7] }.rndIn = 0xB7 :: [] ∧ State.reset.rndIn = [] := ⟨rfl, rfl⟩

/-- The first and the last register of a `DUMP` and of a `LOAD`, and the first one above. -/
theorem witness_DumpStoresRegisters : 0 ≤ (2 : Reg).toNat ∧ 2 ≤ (2 : Reg).toNat := by decide
theorem witness_LoadFillsRegisters :
    (2 : Reg).toNat ≤ (2 : Reg).toNat ∧ (2 : Reg).toNat < (3 : Reg).toNat := by decide

theorem witness_LoadAfterDumpRestoresRegisters :
    ∃ t, ∃ u : State, exec (.dump 0xF) { State.reset with I := 0x0FFF } = .next t ∧ u.mem = t.mem ∧
      u.font = t.font ∧ u.I = t.I ∧ (0xF : Reg).toNat ≤ (0xF : Reg).toNat := ⟨_, _, rfl, rfl, rfl, rfl, le_rfl⟩

theorem witness_DoubleDrawRestoresScreen :
    (0 : Reg) ≠ 0xF ∧ (1 : Reg) ≠ 0xF ∧
    ∃ t u, exec (.drw 0 1 5) { State.reset with I := 0x0050 } = .next t ∧ exec (.drw 0 1 5) t = .next u :=
  ⟨by decide, by decide, _, _, rfl, rfl⟩

theorem witness_WaitKeyTakesHighestOrWaits :
    15 < 16 ∧ { State.reset with key := 0xFFFF }.key.getLsbD 15 = true ∧
    (∀ j, 15 < j → j < 16 → { State.reset with key := 0xFFFF }.key.getLsbD j = false) ∧
    { State.reset with key := 1 }.key.getLsbD 0 = true ∧
    (∀ j, 0 < j → j < 16 → { State.reset with key := 1 }.key.getLsbD j = false) ∧
    ∀ k, k < 16 → State.reset.key.getLsbD k = false := by
  refine ⟨by decide, by decide, fun j h1 h2 => by omega, by decide, fun j h1 h2 => ?_, by decide⟩
  have : ∀ j, j < 16 → 0 < j → { State.reset with key := 1 }.key.getLsbD j = false := by decide
  exact this j h2 h1

theorem witness_SoundTimerSet : State.reset.beep = false := rfl

end Sys2Proof.Tests
end

section
/-! PROOFS. Jumps and skips on an immediate: O31 and O34 (spec/41_flow.md R102, R104, R105). -/

namespace Sys2Proof.Machine

/-- The frame of an instruction that moves `pc` and reports a result. -/
theorem keepsAllBut_pc_result (s : State) (target : Word) (r : Option CycleResult) :
    KeepsAllBut [.pc, .result] s { s with pc := target, result := r } := by
  intro p hp
  cases p with
  | pc => simp at hp
  | result => simp at hp
  | regs => exact fun _ => rfl
  | memory => exact fun _ => rfl
  | stack | keys | random | params | events => exact ⟨rfl, rfl⟩
  | fault => exact ⟨rfl, rfl, rfl⟩
  | index | delay | sound | screen | redraw => rfl

/-- An instruction whose meaning is to move `pc` completes with nothing else changed (R100). -/
theorem completes_of_exec_eq_jump {i : Instr} {s : State} {target : Word} {post : State → Prop}
    (hexec : exec i s = (s.jump target).finish)
    (hpost : post { s with pc := target, result := some .advanced }) :
    Completes i s target [] post :=
  ⟨_, hexec, rfl, rfl, keepsAllBut_pc_result s target _, hpost⟩

/-- A skip is a jump to the second or to the first word after it (R100). -/
theorem State.skipIf_eq_jump (s : State) (c : Bool) :
    s.skipIf c = s.jump (if c then s.pc + 4 else s.pc + 2) := rfl

/-- An instruction that skips on a condition completes at `pc + 4` or at `pc + 2` (R100). -/
theorem completes_of_exec_eq_skipIf {i : Instr} {s : State} {c : Bool} {target : Word}
    {post : State → Prop} (hexec : exec i s = (s.skipIf c).finish)
    (htarget : target = if c then s.pc + 4 else s.pc + 2)
    (hpost : post { s with pc := target, result := some .advanced }) :
    Completes i s target [] post :=
  completes_of_exec_eq_jump (by rw [hexec, State.skipIf_eq_jump, htarget]) hpost

theorem exec_jp (nnn : Addr) (s : State) : exec (.jp nnn) s = (s.jump (addrWord nnn)).finish := rfl

theorem exec_sei (x : Reg) (nn : Byte) (s : State) :
    exec (.sei x nn) s = (s.skipIf (s.reg x == nn)).finish := rfl

theorem exec_snei (x : Reg) (nn : Byte) (s : State) :
    exec (.snei x nn) s = (s.skipIf (s.reg x != nn)).finish := rfl

/-- Zero extension keeps the value of an address (R73). -/
theorem addrWord_toNat (nnn : Addr) : (addrWord nnn).toNat = nnn.toNat :=
  BitVec.toNat_setWidth_of_le (by decide)

/-- Settles O31: `JP` is a jump to the zero-extended address. -/
theorem jumpSetsPc : Obligations.JumpSetsPc := fun nnn s =>
  completes_of_exec_eq_jump (exec_jp nnn s) (addrWord_toNat nnn)

/-- Settles O34: bytes are equal exactly when their values are, and each skip tests that equality. -/
theorem skipOnImmediate : Obligations.SkipOnImmediate := by
  intro x nn s
  have hvalue : (s.reg x).toNat = nn.toNat ↔ s.reg x = nn := BitVec.toNat_inj
  constructor
  · refine completes_of_exec_eq_skipIf (exec_sei x nn s) ?_ trivial
    simp only [hvalue, beq_iff_eq]
  · refine completes_of_exec_eq_skipIf (exec_snei x nn s) ?_ trivial
    simp only [hvalue, bne_iff_ne, ne_eq, ite_not]

end Sys2Proof.Machine
end

section
/-! PROOFS. Load and add of an immediate: O37 (spec/42_alu.md R120, R121). -/

namespace Sys2Proof.Machine

/-- The frame of an instruction that writes general registers, moves `pc` and reports a result. -/
theorem keepsAllBut_pc_result_regs (s : State) (xs : Vector Byte 16) (target : Word)
    (r : Option CycleResult) :
    KeepsAllBut [.pc, .result, .regs] s { s with x := xs, pc := target, result := r } := by
  intro p hp
  cases p with
  | pc | result | regs => simp at hp
  | memory => exact fun _ => rfl
  | stack | keys | random | params | events => exact ⟨rfl, rfl⟩
  | fault => exact ⟨rfl, rfl, rfl⟩
  | index | delay | sound | screen | redraw => rfl

/-- An instruction whose meaning is to write a result completes at the next word; of the registers, its
destination holds the result and the others are unchanged. -/
theorem completes_of_exec_eq_writeResult {i : Instr} {s : State} {x : Reg} {v : Byte}
    {post : State → Prop} (hexec : exec i s = writeResult x v s)
    (hpost : ∀ t : State, t.reg x = v → KeepsRegsBut [x] s t → post t) :
    Completes i s (s.pc + 2) [.regs] post := by
  refine ⟨_, hexec.trans (writeResult_eq x v s), rfl, rfl, keepsAllBut_pc_result_regs s _ _ _,
    hpost _ ?_ fun r hr => ?_⟩
  · exact (State.reg_setReg s x x v).trans (if_pos rfl)
  · exact (State.reg_setReg s x r v).trans (if_neg (List.ne_of_not_mem_cons hr))

theorem exec_ldb (x : Reg) (nn : Byte) (s : State) : exec (.ldb x nn) s = writeResult x nn s := rfl

theorem exec_addb (x : Reg) (nn : Byte) (s : State) :
    exec (.addb x nn) s = writeResult x (s.reg x + nn) s := rfl

/-- Settles O37: both write one result, and a sum of bytes is the sum of their values modulo 256. -/
theorem loadAndAddImmediate : Obligations.LoadAndAddImmediate := by
  intro x nn s
  constructor
  · exact completes_of_exec_eq_writeResult (exec_ldb x nn s) fun _ hx hrest => ⟨hx, hrest⟩
  · refine completes_of_exec_eq_writeResult (exec_addb x nn s) fun t hx hrest => ⟨?_, hrest⟩
    rw [hx, BitVec.toNat_add]

end Sys2Proof.Machine
end

section
/-! PROOFS. Clear screen: O49 (spec/44_display.md R150). -/

namespace Sys2Proof.Machine

/-- The frame of an instruction that writes the framebuffer with its redraw flag, moves `pc` and reports a
result. -/
theorem keepsAllBut_pc_result_screen_redraw (s : State) (fb : Framebuffer) (flag : Bool) (target : Word)
    (r : Option CycleResult) :
    KeepsAllBut [.pc, .result, .screen, .redraw] s
      { s with FB := fb, redraw := flag, pc := target, result := r } := by
  intro p hp
  cases p with
  | pc | result | screen | redraw => simp at hp
  | regs | memory => exact fun _ => rfl
  | stack | keys | random | params | events => exact ⟨rfl, rfl⟩
  | fault => exact ⟨rfl, rfl, rfl⟩
  | index | delay | sound => rfl

theorem exec_cls (s : State) : exec .cls s = (s.display Framebuffer.clear).advance.finish := rfl

/-- Settles O49: `CLS` displays the clear framebuffer, none of whose pixels is set. -/
theorem clearScreenZeroesAll : Obligations.ClearScreenZeroesAll := fun s =>
  ⟨_, exec_cls s, rfl, rfl, keepsAllBut_pc_result_screen_redraw s Framebuffer.clear true _ _,
    Framebuffer.pixel_clear, rfl⟩

end Sys2Proof.Machine
end

section
/-! PROOFS. Waiting for a key and the delay timer: O53 and O54 (spec/45_keys_timers.md R162 to R164). -/

namespace Sys2Proof.Machine

/-! ### Frames compose -/

theorem Part.same_trans {p : Part} {s t u : State} (hst : p.same s t) (htu : p.same t u) :
    p.same s u := by
  cases p with
  | regs | memory => exact fun a => (htu a).trans (hst a)
  | stack | keys | random | params | events => exact ⟨htu.1.trans hst.1, htu.2.trans hst.2⟩
  | fault =>
    obtain ⟨hlatch, hcause, hpc⟩ := hst
    obtain ⟨hlatch', hcause', hpc'⟩ := htu
    exact ⟨hlatch'.trans hlatch, hcause'.trans hcause, hpc'.trans hpc⟩
  | index | pc | delay | sound | screen | redraw | result => exact Eq.trans htu hst

theorem KeepsAllBut.trans {ps qs : List Part} {s t u : State} (hst : KeepsAllBut ps s t)
    (htu : KeepsAllBut qs t u) : KeepsAllBut (qs ++ ps) s u := fun p hp =>
  Part.same_trans (hst p (mt (List.mem_append_right qs) hp)) (htu p (mt (List.mem_append_left ps) hp))

/-- The frame of an instruction that reports a result and leaves `pc` where it is. -/
theorem keepsAllBut_result (s : State) (r : Option CycleResult) :
    KeepsAllBut [.result] s { s with result := r } := by
  intro p hp
  by_cases hpc : p = .pc
  · subst hpc; rfl
  · exact keepsAllBut_pc_result s s.pc r p (by simp_all)

theorem keepsAllBut_setDT (s : State) (v : Byte) : KeepsAllBut [.delay] s (s.setDT v) := by
  intro p hp
  cases p with
  | delay => simp at hp
  | regs | memory => exact fun _ => rfl
  | stack | keys | random | params | events => exact ⟨rfl, rfl⟩
  | fault => exact ⟨rfl, rfl, rfl⟩
  | index | pc | sound | screen | redraw | result => rfl

/-- An instruction whose meaning is an update `u` of the state that keeps `pc`, then the next word: its frame
is that of the update (R100). -/
theorem completes_of_exec_eq_advance {i : Instr} {s u : State} {parts : List Part}
    {post : State → Prop} (hexec : exec i s = u.advance.finish) (hpc : u.pc = s.pc)
    (hframe : KeepsAllBut parts s u)
    (hpost : post { u with pc := u.pc + 2, result := some .advanced }) :
    Completes i s (s.pc + 2) parts post :=
  ⟨_, hexec, rfl, congrArg (· + 2) hpc, hframe.trans (keepsAllBut_pc_result u _ _), hpost⟩

/-- A consequence of a postcondition, derived with the result and the frame that every completed instruction
has. -/
theorem Completes.imp {i : Instr} {s : State} {target : Word} {parts : List Part}
    {post post' : State → Prop} (h : Completes i s target parts post)
    (himp : ∀ t : State, t.result = some .advanced → KeepsAllBut (.pc :: .result :: parts) s t →
      post t → post' t) : Completes i s target parts post' := by
  obtain ⟨t, hexec, hresult, hpc, hframe, hpost⟩ := h
  exact ⟨t, hexec, hresult, hpc, hframe, himp t hresult hframe hpost⟩

/-! ### The end of a cycle -/

/-- The cycle of a completed instruction ends with a tick (R180). -/
theorem State.endCycle_of_advanced {t : State} (h : t.result = some .advanced) :
    t.endCycle = t.tick := if_pos h

/-- A cycle with any other result ends without a tick (R94). -/
theorem State.endCycle_of_not_advanced {t : State} (h : t.result ≠ some .advanced) :
    t.endCycle = t := if_neg h

/-- A completed cycle's tick decrements the delay timer it finds, floored at 0 (R28). -/
theorem State.endCycle_DT_toNat {t : State} (h : t.result = some .advanced) :
    t.endCycle.DT.toNat = t.DT.toNat - 1 := by
  rw [State.endCycle_of_advanced h, State.tick_DT, countDown_toNat]

/-! ### The instructions -/

theorem exec_wkey_of_highestKey_some {s : State} {k : Nat} (x : Reg) (h : highestKey s.key = some k) :
    exec (.wkey x) s = writeResult x (BitVec.ofNat 8 k) s := by
  change execWkey x s = _
  rw [execWkey, h]
  rfl

theorem exec_wkey_of_highestKey_none {s : State} (x : Reg) (h : highestKey s.key = none) :
    exec (.wkey x) s = s.wait := by
  change execWkey x s = _
  rw [execWkey, h]

theorem exec_gdt (x : Reg) (s : State) : exec (.gdt x) s = writeResult x s.DT s := rfl

theorem exec_sdt (x : Reg) (s : State) : exec (.sdt x) s = (s.setDT (s.reg x)).advance.finish := rfl

/-- Settles O53: the scan finds the highest held key, whose number fits a byte, or it finds none and the
cycle waits. -/
theorem waitKeyTakesHighestOrWaits : Obligations.WaitKeyTakesHighestOrWaits := by
  intro x s
  constructor
  · intro k hk hheld habove
    have hhighest : highestKey s.key = some k := highestBelow_eq_some.2 ⟨hk, hheld, habove⟩
    refine completes_of_exec_eq_writeResult (exec_wkey_of_highestKey_some x hhighest)
      fun t hx hrest => ⟨?_, hrest⟩
    rw [hx, BitVec.toNat_ofNat, Nat.mod_eq_of_lt (by omega)]
  · intro hnone
    have hhighest : highestKey s.key = none := highestBelow_eq_none.2 hnone
    exact ⟨_, exec_wkey_of_highestKey_none x hhighest, rfl, keepsAllBut_result s _,
      State.endCycle_of_not_advanced (by simp)⟩

/-- Settles O54: `GDT` writes one result and keeps the timer for the tick; `SDT` sets the timer that the tick
then finds. -/
theorem delayTimerReadAndSet : Obligations.DelayTimerReadAndSet := by
  intro x s
  constructor
  · have hwrite : Completes (.gdt x) s (s.pc + 2) [.regs]
        (fun t => t.reg x = s.DT ∧ KeepsRegsBut [x] s t) :=
      completes_of_exec_eq_writeResult (exec_gdt x s) fun _ hx hrest => ⟨hx, hrest⟩
    refine hwrite.imp fun t hresult hframe ⟨hx, hrest⟩ => ⟨hx, hrest, ?_⟩
    have hDT : t.DT = s.DT := hframe .delay (by decide)
    rw [State.endCycle_DT_toNat hresult, hDT]
  · exact completes_of_exec_eq_advance (exec_sdt x s) rfl (keepsAllBut_setDT s _)
      ⟨rfl, State.endCycle_DT_toNat rfl⟩

end Sys2Proof.Machine
end

section
/-! PROOFS. Loading an image: O4 (spec/70_reset_and_hazards.md R194). -/

namespace Sys2Proof.Machine

/-- The frame of an operation that writes memory only. -/
theorem keepsAllBut_mem (s : State) (m : Memory) : KeepsAllBut [.memory] s { s with mem := m } := by
  intro p hp
  cases p with
  | memory => simp at hp
  | regs => exact fun _ => rfl
  | stack | keys | random | params | events => exact ⟨rfl, rfl⟩
  | fault => exact ⟨rfl, rfl, rfl⟩
  | index | pc | delay | sound | screen | redraw | result => rfl

theorem keepsAllBut_storeBytes (s : State) (a : Word) (bytes : List Byte) :
    KeepsAllBut [.memory] s (s.storeBytes a bytes) := by
  rw [State.storeBytes_frame]
  exact keepsAllBut_mem s _

/-- An offset that stays below 4096 is reached without a wrap (R51). -/
theorem memIndex_add_ofNat (a : Word) (j : Nat) (h : a.toNat + j < 4096) :
    memIndex (a + BitVec.ofNat 16 j) = a.toNat + j := by
  simp only [memIndex, BitVec.toNat_add, BitVec.toNat_ofNat]
  omega

/-- Bytes stored below the end of memory change the bytes at their own addresses only. -/
theorem keepsBytesBut_storeBytes (s : State) (a : Word) (bytes : List Byte)
    (hend : a.toNat + bytes.length ≤ 4096) :
    KeepsBytesBut ((List.range bytes.length).map (a.toNat + ·)) s (s.storeBytes a bytes) := by
  intro c hc
  refine State.storeBytes_other s a bytes c fun j hj heq => hc ?_
  rw [heq, memIndex_add_ofNat a j (by omega)]
  exact List.mem_map_of_mem (List.mem_range.2 hj)

theorem State.loadImage_of_fits (s : State) {image : List Byte} (h : image.length ≤ Config.maxImage) :
    s.loadImage image = .ok (s.storeBytes Config.entry image) := if_pos h

theorem State.loadImage_of_too_large (s : State) {image : List Byte}
    (h : Config.maxImage < image.length) : s.loadImage image = .error .imageTooLarge :=
  if_neg (Nat.not_le.2 h)

/-- Settles O4: an image that fits is stored from 0x200 on and ends below the end of memory, so that none of
its addresses wraps. -/
theorem loadImagePlacesBytes : Obligations.LoadImagePlacesBytes := by
  intro s image
  refine ⟨fun hfits => ?_, s.loadImage_of_too_large⟩
  have hentry : Config.entry.toNat = 0x200 := rfl
  exact ⟨_, s.loadImage_of_fits hfits,
    s.storeBytes_at Config.entry image (by omega),
    keepsBytesBut_storeBytes s Config.entry image (by omega),
    keepsAllBut_storeBytes s Config.entry image⟩

end Sys2Proof.Machine
end

section
/-! PROOFS. The decoder against the encoder: O6, O7 and O8 (spec/30_encoding.md R70 to R80). -/

namespace Sys2Proof

open Sys2Proof.Machine

/-- Settles O7, one case per format and secondary table (R72): the dispatcher reads back the class, the
secondary code and the operands that the encoder wrote. -/
theorem decodeEncodeRoundTrip : Obligations.DecodeEncodeRoundTrip := by
  intro i
  cases i with
  | cls | ret => rfl
  | jp | call | ldi | jpo => simp [encode, decode, fieldC_formatA, fieldNNN_formatA]
  | sei | snei | ldb | addb | rnd =>
    simp [encode, decode, fieldC_formatXB, fieldX_formatXB, fieldNN_formatXB]
  | ser | sner | drw =>
    simp [encode, decode, fieldC_formatXY, fieldX_formatXY, fieldY_formatXY, fieldN_formatXY]
  | mov | or | and | xor | add | sub | shr | subn | shl =>
    simp [encode, decode, decodeClass8, fieldC_formatXY, fieldX_formatXY, fieldY_formatXY,
      fieldN_formatXY]
  | skp | sknp =>
    simp [encode, decode, decodeClassE, fieldC_formatXB, fieldX_formatXB, fieldNN_formatXB]
  | gdt | wkey | sdt | sst | addi | ldf | bcd | dump | load =>
    simp [encode, decode, decodeClassF, fieldC_formatXB, fieldX_formatXB, fieldNN_formatXB]

/-- Settles O6 by decoding each word. -/
theorem tableWordsDecode : Obligations.TableWordsDecode :=
  ⟨rfl, rfl, rfl, rfl, rfl, rfl, rfl, rfl, rfl, rfl, rfl⟩

/-! ### What each secondary table answers -/

theorem encode_of_decodeClass0 {w : Word} {i : Instr} (h : decodeClass0 w = .ok i) : encode i = w := by
  unfold decodeClass0 at h
  split at h
  · cases h; exact Eq.symm ‹_›
  · split at h
    · cases h; exact Eq.symm ‹_›
    · cases h

theorem encode_of_decodeClass8 {x y : Reg} {n : Nibble} {i : Instr} (h : decodeClass8 x y n = .ok i) :
    encode i = formatXY 0x8 x y n := by
  unfold decodeClass8 at h
  split_ifs at h <;> cases h <;> subst n <;> rfl

theorem encode_of_decodeClassE {x : Reg} {nn : Byte} {i : Instr} (h : decodeClassE x nn = .ok i) :
    encode i = formatXB 0xE x nn := by
  unfold decodeClassE at h
  split_ifs at h <;> cases h <;> subst nn <;> rfl

theorem encode_of_decodeClassF {x : Reg} {nn : Byte} {i : Instr} (h : decodeClassF x nn = .ok i) :
    encode i = formatXB 0xF x nn := by
  unfold decodeClassF at h
  split_ifs at h <;> cases h <;> subst nn <;> rfl

/-- Clearing the low nibble of a word (R80). -/
theorem and_fff0_eq_formatXY (w : Word) :
    w &&& 0xFFF0 = formatXY (fieldC w) (fieldX w) (fieldY w) 0 := by
  have hmask : ∀ i, i < 16 → (0xFFF0 : Word).getLsbD i = decide (4 ≤ i) := by decide
  apply BitVec.eq_of_getLsbD_eq
  intro i hi
  rw [← formatXY_fields w]
  simp only [fieldC_formatXY, fieldX_formatXY, fieldY_formatXY, BitVec.getLsbD_and, hmask i hi]
  simp only [formatXY, BitVec.getLsbD_append]
  by_cases hlow : i < 4
  · simp [hlow, Nat.not_le.2 hlow]
  · simp [hlow, Nat.not_lt.1 hlow]

theorem nibble_cases : ∀ c : Nibble, c = 0x0 ∨ c = 0x1 ∨ c = 0x2 ∨ c = 0x3 ∨ c = 0x4 ∨ c = 0x5 ∨ c = 0x6 ∨
    c = 0x7 ∨ c = 0x8 ∨ c = 0x9 ∨ c = 0xA ∨ c = 0xB ∨ c = 0xC ∨ c = 0xD ∨ c = 0xE ∨ c = 0xF := by
  decide

/-- Settles O8, class by class: a word is the format of its own fields, and the secondary tables keep the
fields they are given. -/
theorem decodedWordIsItsEncoding : Obligations.DecodedWordIsItsEncoding := by
  intro w i h
  have hA := formatA_fields w
  have hXB := formatXB_fields w
  have hXY := formatXY_fields w
  have hmask := (and_fff0_eq_formatXY w).symm
  rcases nibble_cases (fieldC w) with
    hc | hc | hc | hc | hc | hc | hc | hc | hc | hc | hc | hc | hc | hc | hc | hc <;>
    simp [decode, hc] at h hA hXB hXY hmask ⊢
  · exact encode_of_decodeClass0 h
  · exact h ▸ hA
  · exact h ▸ hA
  · exact h ▸ hXB
  · exact h ▸ hXB
  · exact h ▸ hmask
  · exact h ▸ hXB
  · exact h ▸ hXB
  · exact (encode_of_decodeClass8 h).trans hXY
  · exact h ▸ hmask
  · exact h ▸ hA
  · exact h ▸ hA
  · exact h ▸ hXB
  · exact h ▸ hXY
  · exact (encode_of_decodeClassE h).trans hXB
  · exact (encode_of_decodeClassF h).trans hXB

/-! ### The unrecognised words -/

theorem fieldC_toNat (w : Word) : (fieldC w).toNat = w.toNat / 4096 := by
  simp [fieldC, Nat.shiftRight_eq_div_pow]; omega

theorem fieldN_toNat (w : Word) : (fieldN w).toNat = w.toNat % 16 := by
  simp [fieldN]

theorem fieldNN_toNat (w : Word) : (fieldNN w).toNat = w.toNat % 256 := by
  simp [fieldNN]

theorem decodeClass0_error_iff (w : Word) :
    (∃ e, decodeClass0 w = .error e) ↔ w ≠ 0x00E0 ∧ w ≠ 0x00EE := by
  unfold decodeClass0
  split_ifs <;> simp_all

theorem decodeClass8_error_iff (x y : Reg) (n : Nibble) :
    (∃ e, decodeClass8 x y n = .error e) ↔ (8 ≤ n.toNat ∧ n.toNat ≤ 13 ∨ n.toNat = 15) := by
  unfold decodeClass8
  split_ifs <;> simp_all
  bv_omega

theorem decodeClassE_error_iff (x : Reg) (nn : Byte) :
    (∃ e, decodeClassE x nn = .error e) ↔ nn.toNat ≠ 0x9E ∧ nn.toNat ≠ 0xA1 := by
  unfold decodeClassE
  split_ifs <;> simp_all [← BitVec.toNat_inj]

theorem decodeClassF_error_iff (x : Reg) (nn : Byte) :
    (∃ e, decodeClassF x nn = .error e) ↔
      nn.toNat ∉ [0x07, 0x0A, 0x15, 0x18, 0x1E, 0x29, 0x33, 0x55, 0x65] := by
  unfold decodeClassF
  split_ifs <;> simp_all [← BitVec.toNat_inj]

/-- The words no row of the dispatcher recognises are those R79 lists, class by class. -/
theorem decode_error_iff (w : Word) : (∃ e, decode w = .error e) ↔ unrecognised w := by
  unfold unrecognised
  rw [← fieldC_toNat w, ← fieldN_toNat w, ← fieldNN_toNat w]
  rcases nibble_cases (fieldC w) with
    hc | hc | hc | hc | hc | hc | hc | hc | hc | hc | hc | hc | hc | hc | hc | hc <;>
    simp [decode, hc, decodeClass0_error_iff, decodeClass8_error_iff, decodeClassE_error_iff,
      decodeClassF_error_iff]

end Sys2Proof
end

section
/-! PROOFS. Reset and the host's actions, the fetch and the parts of a cycle: O1, O2, O3, O10, O11 and O12
(spec/10_state.md section 8, spec/20_memory.md, spec/40_cycle.md R90 to R94). -/

namespace Sys2Proof.Machine

/-! ### Reset (R35, R190) -/

/-- An address reads as the reset contents while no cell is listed (R35). -/
theorem Memory.read_nil (font : Vector Byte 80) (a : Nat) :
    Memory.read font [] a = Memory.initial font a := rfl

theorem Memory.wf_nil (font : Vector Byte 80) : Memory.wf font [] := ⟨List.Pairwise.nil, nofun⟩

theorem State.reg_reset (r : Reg) : State.reset.reg r = 0 := Vector.getElem_replicate _

theorem State.pixel_reset (r : Fin 32) (c : Fin 64) : State.reset.FB.pixel r c = false :=
  Framebuffer.pixel_clear r c

theorem State.stack_reset (k : Fin 16) : State.reset.stack[k] = 0 := Vector.getElem_replicate _

/-- Settles O2: the empty list of cells is canonical, and the latch and its record are clear. -/
theorem resetMeetsStateInv : Obligations.ResetMeetsStateInv :=
  ⟨Memory.wf_nil _, by simp [State.reset]⟩

/-- Settles O3: the action sets each field to its reset value, and with no cell listed memory reads as
`FONT` and zeros. -/
theorem hostResetRestoresEverything : Obligations.HostResetRestoresEverything := fun s =>
  ⟨State.reg_reset, rfl, rfl, rfl, State.stack_reset, rfl, rfl, State.pixel_reset, rfl, rfl, rfl, rfl, rfl,
    rfl, rfl, rfl, rfl, rfl, fun a => Memory.read_nil s.font (memIndex a), Memory.wf_nil _,
    by simp [State.reset]⟩

/-- Settles O1: what the host's reset action restores, read off the reset state. -/
theorem resetHoldsTableValues : Obligations.ResetHoldsTableValues :=
  ⟨State.reg_reset, rfl, rfl, rfl, State.stack_reset, rfl, rfl, State.pixel_reset, rfl, rfl, rfl, rfl, rfl,
    fun a => Memory.read_nil State.reset.font (memIndex a), rfl⟩

/-! ### Fetch (R51, R52) -/

/-- Addresses that agree modulo 4096 name one byte (R51). -/
theorem State.loadByte_congr_memIndex (s : State) {a b : Word} (h : memIndex a = memIndex b) :
    s.loadByte a = s.loadByte b := congrArg (Memory.read s.font s.mem) h

/-- Settles O10: a word is 256 times its high byte plus its low byte, and an address counts modulo 4096. -/
theorem fetchIsBigEndian : Obligations.FetchIsBigEndian := by
  intro s
  refine ⟨composeWord_toNat _ _, fun a b h => s.loadByte_congr_memIndex h, fun hlast => ?_⟩
  have hwrap : memIndex (s.pc + 1) = memIndex 0 := by
    unfold memIndex
    bv_omega
  exact s.loadByte_congr_memIndex hwrap

/-! ### The parts of a cycle -/

theorem KeepsAllBut.mono {ps qs : List Part} {s t : State} (h : KeepsAllBut ps s t) (hsub : ps ⊆ qs) :
    KeepsAllBut qs s t := fun p hp => h p (mt (@hsub p) hp)

theorem State.keepsAllBut_beginCycle (s : State) : KeepsAllBut [.keys, .result, .events] s s.beginCycle := by
  intro p hp
  cases p with
  | keys | result | events => simp at hp
  | regs | memory => exact fun _ => rfl
  | stack | random | params => exact ⟨rfl, rfl⟩
  | fault => exact ⟨rfl, rfl, rfl⟩
  | index | pc | delay | sound | screen | redraw => rfl

theorem State.keepsAllBut_endCycle (t : State) : KeepsAllBut [.delay, .sound, .events] t t.endCycle := by
  rw [State.endCycle_frame]
  intro p hp
  cases p with
  | delay | sound | events => simp at hp
  | regs | memory => exact fun _ => rfl
  | stack | keys | random | params => exact ⟨rfl, rfl⟩
  | fault => exact ⟨rfl, rfl, rfl⟩
  | index | pc | screen | redraw | result => rfl

@[simp] theorem State.fetch_beginCycle (s : State) : s.beginCycle.fetch = s.fetch := rfl

@[simp] theorem State.endCycle_unknown (t : State) : t.endCycle.unknown = t.unknown := by
  rw [State.endCycle_frame]

@[simp] theorem State.endCycle_result (t : State) : t.endCycle.result = t.result := by
  rw [State.endCycle_frame]

/-- A completed cycle's tick decrements the sound timer it finds, floored at 0 (R28). -/
theorem State.endCycle_ST_toNat {t : State} (h : t.result = some .advanced) :
    t.endCycle.ST.toNat = t.ST.toNat - 1 := by
  rw [State.endCycle_of_advanced h, State.tick_ST, countDown_toNat]

/-- A completed cycle with no beep pending beeps exactly if its tick finds the sound timer at 1 (R181). -/
theorem State.endCycle_beep_iff {t : State} (h : t.result = some .advanced) (hbeep : t.beep = false) :
    t.endCycle.beep = true ↔ t.ST = 1 := by
  rw [State.endCycle_of_advanced h, State.tick_beep, hbeep, Bool.false_or, beq_iff_eq]

/-- Settles O12: the cycle ends with a tick if it completed, else as it stands. -/
theorem tickCountsDown : Obligations.TickCountsDown := fun s =>
  ⟨fun h => ⟨State.endCycle_DT_toNat h, State.endCycle_ST_toNat h, State.endCycle_beep_iff h⟩,
    State.endCycle_of_not_advanced, s.keepsAllBut_endCycle, s.endCycle_unknown⟩

/-! ### One cycle (R90) -/

/-- A cycle with the fault latch set. -/
theorem step_of_fault {s : State} (h : s.fault = true) : step s = .next s.beginCycle.halt := by
  simp [step, h]

/-- A cycle that fetches an unrecognised word (R79). -/
theorem step_of_error {s : State} {e : DecodeError} (h : s.fault = false) (hd : decode s.fetch = .error e) :
    step s = .next (s.beginCycle.reportUnknown s.fetch).endCycle := by
  simp [step, h, hd]

/-- A cycle that fetches an instruction (R93). -/
theorem step_of_exec_next {s t : State} {i : Instr} (h : s.fault = false) (hd : decode s.fetch = .ok i)
    (hexec : exec i s.beginCycle = .next t) : step s = .next t.endCycle := by
  simp [step, h, hd, hexec]

/-- Settles O11: the start of the cycle samples the keys and drops the outputs, the end may tick. -/
theorem stepRunsDecodedInstruction : Obligations.StepRunsDecodedInstruction := by
  intro s i h hd
  refine ⟨?_, rfl, rfl, rfl, rfl, s.keepsAllBut_beginCycle,
    fun t => ⟨t.keepsAllBut_endCycle, t.endCycle_unknown⟩⟩
  cases hexec : exec i s.beginCycle <;> simp [step, h, hd, hexec]

end Sys2Proof.Machine
end

section
/-! PROOFS. Calls, returns, jumps with an offset, the skips on registers and keys, and the sound timer: O30,
O32, O33, O35, O36, O52 and O55 (spec/41_flow.md R101 to R108, spec/45_keys_timers.md R160, R161, R165). -/

namespace Sys2Proof.Machine

/-! ### Call and return -/

/-- The frame of an instruction that moves the stack and `pc` and reports a result. -/
theorem keepsAllBut_pc_result_stack (s : State) (st : Vector Word 16) (sp : Fin 17) (target : Word)
    (r : Option CycleResult) :
    KeepsAllBut [.pc, .result, .stack] s { s with stack := st, SP := sp, pc := target, result := r } := by
  intro p hp
  cases p with
  | pc | result | stack => simp at hp
  | regs | memory => exact fun _ => rfl
  | keys | random | params | events => exact ⟨rfl, rfl⟩
  | fault => exact ⟨rfl, rfl, rfl⟩
  | index | delay | sound | screen | redraw => rfl

/-- The frame of a raised condition: the latch, its record and the result. -/
theorem keepsAllBut_fault_result (s : State) (latch : Bool) (cause : Option StackCondition) (addr : Word)
    (r : Option CycleResult) :
    KeepsAllBut [.fault, .result] s
      { s with fault := latch, faultCause := cause, faultPc := addr, result := r } := by
  intro p hp
  cases p with
  | fault | result => simp at hp
  | regs | memory => exact fun _ => rfl
  | stack | keys | random | params | events => exact ⟨rfl, rfl⟩
  | index | pc | delay | sound | screen | redraw => rfl

theorem exec_ret_of_pos {s : State} (h : 0 < s.SP.val) :
    exec .ret s = .next { s with
      pc := s.stack[s.SP.val - 1]'(by omega) + 2
      SP := ⟨s.SP.val - 1, by omega⟩
      result := some .advanced } := execRet_of_pos h

theorem exec_ret_of_zero {s : State} (h : s.SP.val = 0) : exec .ret s = s.raise .stackUnderflow := by
  change execRet s = _
  rw [execRet, State.pop_of_zero h]

theorem exec_call_of_lt (nnn : Addr) {s : State} (h : s.SP.val < 16) :
    exec (.call nnn) s = .next { s with
      pc := addrWord nnn
      stack := s.stack.set s.SP.val s.pc h
      SP := ⟨s.SP.val + 1, by omega⟩
      result := some .advanced } := execCall_of_lt nnn h

theorem exec_call_of_full (nnn : Addr) {s : State} (h : s.SP.val = 16) :
    exec (.call nnn) s = s.raise .stackOverflow := by
  change execCall nnn s = _
  rw [execCall, State.push_of_full s.pc h]

/-- Settles O30: a pop of a stack that is not empty, and a raised condition on an empty one. -/
theorem returnPopsAndAddsTwo : Obligations.ReturnPopsAndAddsTwo := fun s =>
  ⟨fun h => ⟨_, exec_ret_of_pos h, rfl, rfl, keepsAllBut_pc_result_stack s _ _ _ _, rfl, rfl⟩,
    fun h => ⟨_, exec_ret_of_zero h, rfl, rfl, rfl, rfl, keepsAllBut_fault_result s _ _ _ _⟩⟩

/-- Settles O32: a push on a stack that is not full, and a raised condition on a full one. -/
theorem callPushesItsOwnAddress : Obligations.CallPushesItsOwnAddress := fun nnn s =>
  ⟨fun h => ⟨_, exec_call_of_lt nnn h, rfl, rfl, keepsAllBut_pc_result_stack s _ _ _ _, rfl, rfl⟩,
    fun h => ⟨_, exec_call_of_full nnn h, rfl, rfl, rfl, rfl, keepsAllBut_fault_result s _ _ _ _⟩⟩

/-- Settles O33: the entry that the return pops is the one the call pushed. -/
theorem returnLandsAfterCall : Obligations.ReturnLandsAfterCall := by
  intro nnn s t u hroom hcall hSP hstack
  obtain rfl := Host.Outcome.next.inj ((exec_call_of_lt nnn hroom).symm.trans hcall)
  have hSP' : u.SP.val = s.SP.val + 1 := congrArg Fin.val hSP
  have hpos : 0 < u.SP.val := by omega
  have htop : u.stack[u.SP.val - 1]'(by omega) = s.pc := by simp [hstack, hSP']
  have hret := (returnPopsAndAddsTwo u).1 hpos
  rw [htop] at hret
  refine hret.imp fun v _ _ ⟨hv, hst⟩ => ⟨Fin.ext ?_, hst⟩
  omega

/-! ### Jumps and skips -/

theorem exec_jpo (nnn : Addr) (s : State) :
    exec (.jpo nnn) s = (s.jump (addrWord nnn + byteWord (s.reg 0))).finish := rfl

theorem exec_ser (x y : Reg) (s : State) : exec (.ser x y) s = (s.skipIf (s.reg x == s.reg y)).finish := rfl

theorem exec_sner (x y : Reg) (s : State) :
    exec (.sner x y) s = (s.skipIf (s.reg x != s.reg y)).finish := rfl

theorem exec_skp (x : Reg) (s : State) : exec (.skp x) s = (s.skipIf (s.keyHeld (s.reg x))).finish := rfl

theorem exec_sknp (x : Reg) (s : State) :
    exec (.sknp x) s = (s.skipIf (!s.keyHeld (s.reg x))).finish := rfl

/-- Zero extension keeps the value of a byte (R73). -/
theorem byteWord_toNat (v : Byte) : (byteWord v).toNat = v.toNat :=
  BitVec.toNat_setWidth_of_le (by decide)

theorem addrWord_add_byteWord (nnn : Addr) (v : Byte) :
    addrWord nnn + byteWord v = BitVec.ofNat 16 (nnn.toNat + v.toNat) := by
  apply BitVec.eq_of_toNat_eq
  rw [BitVec.toNat_add, addrWord_toNat, byteWord_toNat, BitVec.toNat_ofNat]

/-- Settles O36: the sum of a 12-bit and an 8-bit value does not wrap. -/
theorem jumpOffsetAddsRegisterZero : Obligations.JumpOffsetAddsRegisterZero := by
  intro nnn s
  refine completes_of_exec_eq_jump (by rw [exec_jpo, addrWord_add_byteWord]) ?_
  have hnnn := nnn.isLt
  have hv := (s.reg 0).isLt
  simp only [BitVec.toNat_ofNat]
  omega

/-- Settles O35: bytes are equal exactly when their values are, and each skip tests that equality. -/
theorem skipOnRegisters : Obligations.SkipOnRegisters := by
  intro x y s
  have hvalue : (s.reg x).toNat = (s.reg y).toNat ↔ s.reg x = s.reg y := BitVec.toNat_inj
  constructor
  · refine completes_of_exec_eq_skipIf (exec_ser x y s) ?_ ?_
    · simp only [hvalue, beq_iff_eq]
    · rintro rfl; exact if_pos rfl
  · refine completes_of_exec_eq_skipIf (exec_sner x y s) ?_ ?_
    · simp only [hvalue, bne_iff_ne, ne_eq, ite_not]
    · rintro rfl; exact if_pos rfl

/-- Settles O52: both skips test the key that the low four bits of the register select. -/
theorem skipOnKey : Obligations.SkipOnKey := by
  intro x s
  constructor
  · exact completes_of_exec_eq_skipIf (exec_skp x s) rfl trivial
  · refine completes_of_exec_eq_skipIf (exec_sknp x s) ?_ trivial
    simp only [State.keyHeld, keySelect, Bool.not_eq_true']

/-! ### The sound timer -/

theorem keepsAllBut_setST (s : State) (v : Byte) : KeepsAllBut [.sound] s (s.setST v) := by
  intro p hp
  cases p with
  | sound => simp at hp
  | regs | memory => exact fun _ => rfl
  | stack | keys | random | params | events => exact ⟨rfl, rfl⟩
  | fault => exact ⟨rfl, rfl, rfl⟩
  | index | pc | delay | screen | redraw | result => rfl

theorem exec_sst (x : Reg) (s : State) : exec (.sst x) s = (s.setST (s.reg x)).advance.finish := rfl

/-- Settles O55: the tick of the cycle finds the value that was set. -/
theorem soundTimerSet : Obligations.SoundTimerSet := by
  intro x s
  have hset : Completes (.sst x) s (s.pc + 2) [.sound] (fun t => t.ST = s.reg x ∧ t.beep = s.beep) :=
    completes_of_exec_eq_advance (exec_sst x s) rfl (keepsAllBut_setST s _) ⟨rfl, rfl⟩
  refine hset.imp fun t hresult _ ⟨hST, hbeep⟩ => ⟨hST, ?_, fun hnone => ?_⟩
  · rw [State.endCycle_ST_toNat hresult, hST]
  · rw [State.endCycle_beep_iff hresult (hbeep.trans hnone), hST]
    exact BitVec.toNat_inj.symm

end Sys2Proof.Machine
end

section
/-! PROOFS. Moves, logic, arithmetic with a flag, shifts and random bytes: O38 to O42 (spec/42_alu.md). -/

namespace Sys2Proof.Machine

/-! ### Results without a flag -/

theorem exec_mov (x y : Reg) (s : State) : exec (.mov x y) s = writeResult x (s.reg y) s := rfl

theorem exec_or (x y : Reg) (s : State) : exec (.or x y) s = writeResult x (s.reg x ||| s.reg y) s := rfl

theorem exec_and (x y : Reg) (s : State) : exec (.and x y) s = writeResult x (s.reg x &&& s.reg y) s := rfl

theorem exec_xor (x y : Reg) (s : State) : exec (.xor x y) s = writeResult x (s.reg x ^^^ s.reg y) s := rfl

/-- Settles O38: each writes one result, whose bits are those of the operation on words. -/
theorem moveAndLogic : Obligations.MoveAndLogic := by
  intro x y s
  refine ⟨?_, ?_, ?_, ?_⟩
  · exact completes_of_exec_eq_writeResult (exec_mov x y s) fun _ hx hrest => ⟨hx, hrest⟩
  · exact completes_of_exec_eq_writeResult (exec_or x y s) fun _ hx hrest =>
      ⟨fun k => by rw [hx, BitVec.getLsbD_or], hrest⟩
  · exact completes_of_exec_eq_writeResult (exec_and x y s) fun _ hx hrest =>
      ⟨fun k => by rw [hx, BitVec.getLsbD_and], hrest⟩
  · exact completes_of_exec_eq_writeResult (exec_xor x y s) fun _ hx hrest =>
      ⟨fun k => by rw [hx, BitVec.getLsbD_xor], hrest⟩

/-! ### A flag, then the result (R127) -/

/-- The value an operand has once the flag is written: the flag if the operand is `x[0xF]` (R127). -/
def State.afterFlag (s : State) (flag : Byte) (r : Reg) : Byte := if r = flagReg then flag else s.reg r

theorem State.afterFlag_toNat (s : State) (flag : Byte) (r : Reg) :
    (s.afterFlag flag r).toNat = if r = 0xF then flag.toNat else (s.reg r).toNat :=
  apply_ite BitVec.toNat _ _ _

/-- An instruction whose meaning is a flag and then a result completes at the next word; its destination
holds the result of the operands after the flag, `x[0xF]` the flag unless it is the destination. -/
theorem completes_of_exec_eq_flagThenResult {i : Instr} {s : State} {x a b : Reg}
    {flag result : Byte → Byte → Byte} {post : State → Prop} (f : Byte) (hf : flag (s.reg a) (s.reg b) = f)
    (hexec : exec i s = flagThenResult x a b flag result s)
    (hpost : ∀ t : State, t.reg x = result (s.afterFlag f a) (s.afterFlag f b) →
      (x ≠ flagReg → t.reg flagReg = f) → KeepsRegsBut [x, flagReg] s t → post t) :
    Completes i s (s.pc + 2) [.regs] post := by
  obtain ⟨t, hnext, hframe, hreg⟩ := flagThenResult_eq x a b flag result s
  rw [hf] at hreg
  refine ⟨t, hexec.trans hnext, ?_, ?_, ?_, hpost t ?_ (fun hx => ?_) fun r hr => ?_⟩
  · rw [hframe]
  · rw [hframe]
  · rw [hframe]; exact keepsAllBut_pc_result_regs s _ _ _
  · rw [hreg, if_pos rfl]; rfl
  · rw [hreg, if_neg hx.symm, if_pos rfl]
  · simp only [List.mem_cons, List.not_mem_nil, or_false, not_or] at hr
    rw [hreg, if_neg hr.1, if_neg hr.2]

theorem exec_add (x y : Reg) (s : State) :
    exec (.add x y) s = flagThenResult x x y carryFlag (fun a b => a + b) s := rfl

theorem exec_sub (x y : Reg) (s : State) :
    exec (.sub x y) s = flagThenResult x x y noBorrowFlag (fun a b => a - b) s := rfl

theorem exec_subn (x y : Reg) (s : State) :
    exec (.subn x y) s = flagThenResult x y x noBorrowFlag (fun a b => a - b) s := rfl

theorem exec_shr (x y : Reg) (s : State) :
    exec (.shr x y) s = flagThenResult x (s.shiftReg x y) (s.shiftReg x y) (fun v _ => lowBitFlag v)
      (fun v _ => v >>> 1) s := rfl

theorem exec_shl (x y : Reg) (s : State) :
    exec (.shl x y) s = flagThenResult x (s.shiftReg x y) (s.shiftReg x y) (fun v _ => highBitFlag v)
      (fun v _ => v <<< 1) s := rfl

theorem flagByte_decide_toNat (p : Prop) [Decidable p] :
    (flagByte (decide p)).toNat = if p then 1 else 0 := by
  by_cases h : p <;> simp [h, flagByte]

theorem carryFlag_toNat (a b : Byte) : (carryFlag a b).toNat = if a.toNat + b.toNat > 255 then 1 else 0 :=
  flagByte_decide_toNat _

theorem noBorrowFlag_toNat (a b : Byte) :
    (noBorrowFlag a b).toNat = if b.toNat > a.toNat then 0 else 1 := by
  rw [noBorrowFlag, flagByte_decide_toNat, ← ite_not]
  simp only [gt_iff_lt, Nat.not_le]

theorem lowBitFlag_toNat (v : Byte) : (lowBitFlag v).toNat = v.toNat % 2 := by
  rw [lowBitFlag, flagByte_toNat, BitVec.getLsbD, Nat.toNat_testBit, pow_zero, Nat.div_one]

theorem highBitFlag_toNat (v : Byte) : (highBitFlag v).toNat = v.toNat / 128 := by
  have hv := v.isLt
  rw [highBitFlag, flagByte_toNat, BitVec.getLsbD, Nat.toNat_testBit]
  omega

theorem byte_sub_toNat (a b : Byte) : (a - b).toNat = (a.toNat + 256 - b.toNat) % 256 := by
  have hb := b.isLt
  rw [BitVec.toNat_sub]
  omega

theorem byte_shiftRight_one_toNat (v : Byte) : (v >>> 1).toNat = v.toNat / 2 := by
  rw [BitVec.toNat_ushiftRight, Nat.shiftRight_one]

theorem byte_shiftLeft_one_toNat (v : Byte) : (v <<< 1).toNat = 2 * v.toNat % 256 := by
  rw [BitVec.toNat_shiftLeft, Nat.shiftLeft_eq, pow_one, Nat.mul_comm]

/-- Settles O39: the carry flag, then a sum of the operands after it. -/
theorem addSetsCarryThenSum : Obligations.AddSetsCarryThenSum := by
  intro x y s
  refine completes_of_exec_eq_flagThenResult _ rfl (exec_add x y s) fun t hx hflag hrest => ?_
  simp only [← carryFlag_toNat, ← State.afterFlag_toNat]
  exact ⟨hx ▸ BitVec.toNat_add _ _, fun h => congrArg _ (hflag h), hrest⟩

/-- Settles O40: the no-borrow flag, then a difference of the operands after it. -/
theorem subtractSetsNoBorrowThenDifference : Obligations.SubtractSetsNoBorrowThenDifference := by
  intro x y s
  constructor
  · refine completes_of_exec_eq_flagThenResult _ rfl (exec_sub x y s) fun t hx hflag hrest => ?_
    simp only [← noBorrowFlag_toNat, ← State.afterFlag_toNat, ← byte_sub_toNat]
    exact ⟨congrArg _ hx, fun h => congrArg _ (hflag h), hrest⟩
  · refine completes_of_exec_eq_flagThenResult _ rfl (exec_subn x y s) fun t hx hflag hrest => ?_
    simp only [← noBorrowFlag_toNat, ← State.afterFlag_toNat, ← byte_sub_toNat]
    exact ⟨congrArg _ hx, fun h => congrArg _ (hflag h), hrest⟩

/-- Settles O41: the bit shifted out, then the shift of the source register after it. -/
theorem shiftSetsBitOutThenShift : Obligations.ShiftSetsBitOutThenShift := by
  intro x y s
  change let src := s.shiftReg x y; _
  constructor
  · refine completes_of_exec_eq_flagThenResult _ rfl (exec_shr x y s) fun t hx hflag hrest => ?_
    simp only [← lowBitFlag_toNat, ← State.afterFlag_toNat, ← byte_shiftRight_one_toNat]
    exact ⟨congrArg _ hx, fun h => congrArg _ (hflag h), hrest⟩
  · refine completes_of_exec_eq_flagThenResult _ rfl (exec_shl x y s) fun t hx hflag hrest => ?_
    simp only [← highBitFlag_toNat, ← State.afterFlag_toNat, ← byte_shiftLeft_one_toNat]
    exact ⟨congrArg _ hx, fun h => congrArg _ (hflag h), hrest⟩

/-! ### Random bytes -/

/-- The frame of an operation that writes general registers only. -/
theorem keepsAllBut_regFile (s : State) (xs : Vector Byte 16) : KeepsAllBut [.regs] s { s with x := xs } := by
  intro p hp
  cases p with
  | regs => simp at hp
  | memory => exact fun _ => rfl
  | stack | keys | random | params | events => exact ⟨rfl, rfl⟩
  | fault => exact ⟨rfl, rfl, rfl⟩
  | index | pc | delay | sound | screen | redraw | result => rfl

theorem keepsAllBut_setReg (s : State) (r : Reg) (v : Byte) : KeepsAllBut [.regs] s (s.setReg r v) :=
  keepsAllBut_regFile s _

/-- The frame of a draw. -/
theorem keepsAllBut_rnd (s : State) (bytes : List Byte) (draws : Nat) :
    KeepsAllBut [.random] s { s with rndIn := bytes, rndDraws := draws } := by
  intro p hp
  cases p with
  | random => simp at hp
  | regs | memory => exact fun _ => rfl
  | stack | keys | params | events => exact ⟨rfl, rfl⟩
  | fault => exact ⟨rfl, rfl, rfl⟩
  | index | pc | delay | sound | screen | redraw | result => rfl

theorem State.keepsRegsBut_setReg (s : State) (r : Reg) (v : Byte) : KeepsRegsBut [r] s (s.setReg r v) :=
  fun q hq => (s.reg_setReg r q v).trans (if_neg (List.ne_of_not_mem_cons hq))

theorem exec_rnd (x : Reg) (nn : Byte) (s : State) :
    exec (.rnd x nn) s = (s.drawRnd.2.setReg x (s.drawRnd.1 &&& nn)).advance.finish := rfl

/-- `RND` after a draw of `r` that leaves the random input at `bytes` and `draws`. -/
theorem completes_rnd_of_drawRnd {s : State} {r : Byte} {bytes : List Byte} {draws : Nat} (x : Reg) (nn : Byte)
    (hdraw : s.drawRnd = (r, { s with rndIn := bytes, rndDraws := draws })) :
    Completes (.rnd x nn) s (s.pc + 2) [.regs, .random] (fun t =>
      t.reg x = r &&& nn ∧ t.rndIn = bytes ∧ t.rndDraws = draws ∧ KeepsRegsBut [x] s t) := by
  have hexec : exec (.rnd x nn) s =
      (State.setReg { s with rndIn := bytes, rndDraws := draws } x (r &&& nn)).advance.finish := by
    rw [exec_rnd, hdraw]
  refine completes_of_exec_eq_advance hexec rfl
    ((keepsAllBut_rnd s bytes draws).trans (keepsAllBut_setReg _ x (r &&& nn))) ⟨?_, rfl, rfl, ?_⟩
  · exact (State.reg_setReg _ x x _).trans (if_pos rfl)
  · exact s.keepsRegsBut_setReg x (r &&& nn)

/-- Settles O42: with a byte ready and with none, the draw is the byte that is masked. -/
theorem randomAndMasksDrawnByte : Obligations.RandomAndMasksDrawnByte := fun x nn s =>
  ⟨fun _ _ h => completes_rnd_of_drawRnd x nn (State.drawRnd_cons h), fun h => by
    simpa only [h] using completes_rnd_of_drawRnd x nn (State.drawRnd_nil h)⟩

end Sys2Proof.Machine
end

section
/-! PROOFS. The index register and memory: O20, O43 to O48 (spec/43_index_memory.md, spec/20_memory.md
section 7). -/

namespace Sys2Proof.Machine

/-! ### The index register -/

theorem keepsAllBut_setI (s : State) (v : Word) : KeepsAllBut [.index] s (s.setI v) := by
  intro p hp
  cases p with
  | index => simp at hp
  | regs | memory => exact fun _ => rfl
  | stack | keys | random | params | events => exact ⟨rfl, rfl⟩
  | fault => exact ⟨rfl, rfl, rfl⟩
  | pc | delay | sound | screen | redraw | result => rfl

theorem exec_ldi (nnn : Addr) (s : State) : exec (.ldi nnn) s = (s.setI (addrWord nnn)).advance.finish := rfl

theorem exec_ldf (x : Reg) (s : State) :
    exec (.ldf x) s = (s.setI (glyphAddress (s.reg x))).advance.finish := rfl

theorem exec_addi (x : Reg) (s : State) :
    exec (.addi x) s = ((s.setI (s.I + byteWord (s.reg x))).setReg flagReg
      (indexOverflowFlag s.I (s.reg x))).advance.finish := rfl

/-- A glyph address is below 65536 for every byte: no mask is needed (R142). -/
theorem glyphAddress_toNat (v : Byte) : (glyphAddress v).toNat = 0x50 + 5 * v.toNat := by
  have hv := v.isLt
  rw [glyphAddress, BitVec.toNat_ofNat]
  omega

/-- Settles O43: a 12-bit address and a glyph address fit 16 bits. -/
theorem indexLoads : Obligations.IndexLoads := fun nnn x s =>
  ⟨completes_of_exec_eq_advance (exec_ldi nnn s) rfl (keepsAllBut_setI s _) (addrWord_toNat nnn),
    completes_of_exec_eq_advance (exec_ldf x s) rfl (keepsAllBut_setI s _) (glyphAddress_toNat _)⟩

theorem indexOverflowFlag_toNat (i : Word) (v : Byte) :
    (indexOverflowFlag i v).toNat = if i.toNat + v.toNat > 0xFFF then 1 else 0 := flagByte_decide_toNat _

/-- Settles O44: sum and flag are computed from the values at the start. -/
theorem addToIndexFlagsOverflow : Obligations.AddToIndexFlagsOverflow := by
  intro x s
  refine completes_of_exec_eq_advance (exec_addi x s) rfl
    ((keepsAllBut_setI s _).trans (keepsAllBut_setReg _ _ _)) ⟨?_, ?_, ?_⟩
  · exact (BitVec.toNat_add _ _).trans (by rw [byteWord_toNat])
  · exact (congrArg _ ((State.reg_setReg _ flagReg flagReg _).trans (if_pos rfl))).trans
      (indexOverflowFlag_toNat s.I (s.reg x))
  · exact State.keepsRegsBut_setReg _ flagReg _

/-! ### Storing to memory -/

theorem exec_bcd (x : Reg) (s : State) :
    exec (.bcd x) s = (((s.storeByte (s.indexed 0) (hundreds (s.reg x))).storeByte (s.indexed 1)
      (tens (s.reg x))).storeByte (s.indexed 2) (ones (s.reg x))).advance.finish := rfl

theorem exec_dump (x : Reg) (s : State) : exec (.dump x) s = (s.dumpRegs (x.toNat + 1)).advance.finish := rfl

theorem exec_load (x : Reg) (s : State) : exec (.load x) s = (s.loadRegs (x.toNat + 1)).advance.finish := rfl

theorem State.indexed_zero (s : State) : s.indexed 0 = s.I := BitVec.add_zero _

theorem keepsAllBut_dumpRegs (s : State) (n : Nat) : KeepsAllBut [.memory] s (s.dumpRegs n) := by
  rw [State.dumpRegs_frame]
  exact keepsAllBut_mem s _

theorem hundreds_toNat (v : Byte) : (hundreds v).toNat = v.toNat / 100 := by
  have hv := v.isLt
  rw [hundreds, BitVec.toNat_ofNat]
  omega

theorem tens_toNat (v : Byte) : (tens v).toNat = v.toNat / 10 % 10 := by
  rw [tens, BitVec.toNat_ofNat]
  omega

theorem ones_toNat (v : Byte) : (ones v).toNat = v.toNat % 10 := by
  rw [ones, BitVec.toNat_ofNat]
  omega

/-- Three bytes stored through `I` are at three addresses, and every other byte is as before. -/
theorem loadByte_storeByte_three (s : State) (u v w : Byte) :
    let t := ((s.storeByte (s.indexed 0) u).storeByte (s.indexed 1) v).storeByte (s.indexed 2) w
    t.loadByte (s.indexed 0) = u ∧ t.loadByte (s.indexed 1) = v ∧ t.loadByte (s.indexed 2) = w ∧
      KeepsBytesBut [memIndex (s.indexed 0), memIndex (s.indexed 1), memIndex (s.indexed 2)] s t := by
  have hne {j k : Nat} (hj : j < 3) (hk : k < 3) (h : j ≠ k) :
      memIndex (s.indexed j) ≠ memIndex (s.indexed k) := s.memIndex_indexed_ne (by omega) (by omega) h
  refine ⟨?_, ?_, ?_, fun a ha => ?_⟩
  · simp [State.loadByte_storeByte, hne]
  · simp [State.loadByte_storeByte, hne]
  · simp [State.loadByte_storeByte]
  · simp only [List.mem_cons, List.not_mem_nil, or_false, not_or] at ha
    obtain ⟨ha0, ha1, ha2⟩ := ha
    simp only [State.loadByte_storeByte, if_neg ha2, if_neg ha1, if_neg ha0]

/-- Settles O45: the digits are stored through `I`. -/
theorem bcdStoresDigits : Obligations.BcdStoresDigits := by
  intro x s
  have hzero := s.indexed_zero
  obtain ⟨hhundreds, htens, hones, hrest⟩ :=
    loadByte_storeByte_three s (hundreds (s.reg x)) (tens (s.reg x)) (ones (s.reg x))
  refine completes_of_exec_eq_advance (exec_bcd x s) rfl (keepsAllBut_mem s _) ⟨?_, ?_, ?_, ?_⟩
  · exact hzero ▸ (congrArg _ hhundreds).trans (hundreds_toNat _)
  · exact (congrArg _ htens).trans (tens_toNat _)
  · exact (congrArg _ hones).trans (ones_toNat _)
  · have hcells : [memIndex (s.indexed 0), memIndex (s.indexed 1), memIndex (s.indexed 2)] =
        [memIndex s.I, memIndex (s.I + 1), memIndex (s.I + 2)] := by rw [hzero]; rfl
    exact fun a ha => hrest a (hcells ▸ ha)

/-- Settles O46: the registers dumped are read back at their addresses, and every other byte is as before. -/
theorem dumpStoresRegisters : Obligations.DumpStoresRegisters := by
  intro x s
  have hx := x.isLt
  refine completes_of_exec_eq_advance (exec_dump x s) (keepsAllBut_dumpRegs s _ .pc (by decide))
    (keepsAllBut_dumpRegs s _) ⟨fun k hk => ?_, ?_⟩
  · exact s.dumpRegs_stored (by omega) (by omega)
  · intro a ha
    refine s.dumpRegs_other _ a fun k hk heq => ha ?_
    exact heq ▸ List.mem_map_of_mem (List.mem_range.2 hk)

/-! ### Loading from memory -/

theorem keepsAllBut_loadRegs (s : State) (n : Nat) : KeepsAllBut [.regs] s (s.loadRegs n) := by
  rw [State.loadRegs_frame]
  exact keepsAllBut_regFile s _

/-- Settles O47: a register up to X is loaded from its own offset, and one above is not written. -/
theorem loadFillsRegisters : Obligations.LoadFillsRegisters := by
  intro x s
  have hx := x.isLt
  have hreg := s.reg_loadRegs (n := x.toNat + 1) (by omega)
  refine completes_of_exec_eq_advance (exec_load x s) (keepsAllBut_loadRegs s _ .pc (by decide))
    (keepsAllBut_loadRegs s _) ⟨fun r hr => ?_, fun r hr => ?_⟩
  · rw [← BitVec.ofNat_toNat]
    exact (hreg r).trans (if_pos (by omega))
  · exact (hreg r).trans (if_neg (by omega))

/-! ### Consequences of a dump -/

/-- What holds of an instruction that completes, read off the state that its meaning answers. -/
theorem Completes.of_exec {i : Instr} {s t : State} {target : Word} {parts : List Part} {post : State → Prop}
    (h : Completes i s target parts post) (hexec : exec i s = .next t) :
    t.result = some .advanced ∧ t.pc = target ∧ KeepsAllBut (.pc :: .result :: parts) s t ∧ post t := by
  obtain ⟨u, hu, hrest⟩ := h
  obtain rfl := Host.Outcome.next.inj (hu.symm.trans hexec)
  exact hrest

/-- Settles O20: the dumped bytes are those at the new `pc` and after it. -/
theorem dumpOverNextWordIsFetched : Obligations.DumpOverNextWordIsFetched := by
  intro s t hI hexec
  obtain ⟨-, hpc, -, hstored, -⟩ := (dumpStoresRegisters 1 s).of_exec hexec
  have hhigh : t.loadByte t.pc = s.reg 0 := by
    rw [hpc, ← hI, ← BitVec.add_zero s.I]
    exact hstored 0 (by decide)
  have hlow : t.loadByte (t.pc + 1) = s.reg 1 := by
    rw [hpc, ← hI]
    exact hstored 1 (by decide)
  rw [State.fetch, hhigh, hlow]

/-- Settles O48: the load reads each register from the address that the dump stored it to. -/
theorem loadAfterDumpRestoresRegisters : Obligations.LoadAfterDumpRestoresRegisters := by
  intro x s t u hdump hmem hfont hI
  obtain ⟨-, -, hframe, hstored, -⟩ := (dumpStoresRegisters x s).of_exec hdump
  have hI' : u.I = s.I := hI.trans (hframe .index (by decide))
  refine (loadFillsRegisters x u).imp fun v _ _ ⟨hloaded, _⟩ r hr => ?_
  have hbyte := hstored r.toNat hr
  rw [BitVec.ofNat_toNat, BitVec.ofNat_toNat, BitVec.setWidth_eq] at hbyte
  rw [hloaded r hr, State.loadByte_congr hmem hfont, hI', hbyte]

end Sys2Proof.Machine
end

section
/-! PROOFS. Drawing a sprite: O50 and O51 (spec/44_display.md R151). -/

namespace Sys2Proof.Machine

theorem clampRow_beq (k : Nat) (r : Fin 32) : (clampRow k == r) = (min k 31 == r.val) := by
  rw [Bool.eq_iff_iff, beq_iff_eq, beq_iff_eq, Fin.ext_iff, clampRow]

theorem clampColumn_beq (k : Nat) (c : Fin 64) : (clampColumn k == c) = (min k 63 == c.val) := by
  rw [Bool.eq_iff_iff, beq_iff_eq, beq_iff_eq, Fin.ext_iff, clampColumn]

/-- A draw toggles each pixel as often as `drwHits` counts. -/
theorem State.draw_after (s : State) (x y : Reg) (n : Nibble) :
    Drawing.After ⟨s.FB, false⟩ (s.draw (s.reg x) (s.reg y) n.toNat) (drwHits s x y n) := by
  refine cast (congrArg _ ?_) (Drawing.rows_after ⟨s.FB, false⟩ (startColumn (s.reg x))
    (startRow (s.reg y)) (fun k => s.loadByte (s.indexed k)) n.toNat)
  funext r c
  simp only [drwHits, spriteHits, spriteBit, startColumn, startRow, clampRow_beq, clampColumn_beq]

theorem flagByte_eq_one_iff (b : Bool) : flagByte b = 1 ↔ b = true := by cases b <;> decide

theorem flagByte_eq_zero_or_one (b : Bool) : flagByte b = 0 ∨ flagByte b = 1 := by cases b <;> decide

theorem keepsAllBut_display (s : State) (fb : Framebuffer) :
    KeepsAllBut [.screen, .redraw] s (s.display fb) := by
  intro p hp
  cases p with
  | screen | redraw => simp at hp
  | regs | memory => exact fun _ => rfl
  | stack | keys | random | params | events => exact ⟨rfl, rfl⟩
  | fault => exact ⟨rfl, rfl, rfl⟩
  | index | pc | delay | sound | result => rfl

/-- The draw is displayed and its collision written to `x[0xF]`; the two writes are of different parts. -/
theorem exec_drw (x y : Reg) (n : Nibble) (s : State) :
    exec (.drw x y n) s =
      ((s.display (s.draw (s.reg x) (s.reg y) n.toNat).fb).setReg flagReg
        (flagByte (s.draw (s.reg x) (s.reg y) n.toNat).collision)).advance.finish := rfl

/-- `DRW` displays the draw and reports its collision. -/
theorem completes_drw (x y : Reg) (n : Nibble) (s : State) :
    Completes (.drw x y n) s (s.pc + 2) [.regs, .screen, .redraw] (fun t =>
      t.FB = (s.draw (s.reg x) (s.reg y) n.toNat).fb ∧
      t.reg flagReg = flagByte (s.draw (s.reg x) (s.reg y) n.toNat).collision ∧
      t.redraw = true ∧ KeepsRegsBut [flagReg] s t) := by
  refine completes_of_exec_eq_advance (exec_drw x y n s) rfl
    ((keepsAllBut_display s _).trans (keepsAllBut_setReg _ _ _)) ⟨rfl, ?_, rfl, ?_⟩
  · exact (State.reg_setReg _ flagReg flagReg _).trans (if_pos rfl)
  · exact State.keepsRegsBut_setReg (s.display _) flagReg _

/-- Settles O50: what the draw did to each pixel and to the flag, counted in hits. -/
theorem drawTogglesHitPixels : Obligations.DrawTogglesHitPixels := by
  intro x y n s
  obtain ⟨hpixel, hcollision⟩ := s.draw_after x y n
  refine (completes_drw x y n s).imp fun t _ _ ⟨hFB, hflag, hredraw, hregs⟩ =>
    ⟨?_, ?_, ?_, hredraw, hregs⟩
  · exact fun r c => hFB ▸ hpixel r c
  · exact hflag ▸ flagByte_eq_zero_or_one _
  · rw [hflag, flagByte_eq_one_iff, hcollision]
    exact or_iff_right Bool.false_ne_true

/-- The hits of a draw depend on its two registers, `I` and memory only. -/
theorem drwHits_congr {s t : State} {x y : Reg} {n : Nibble} (hx : t.reg x = s.reg x)
    (hy : t.reg y = s.reg y) (hI : t.I = s.I) (hmem : ∀ a, t.loadByte a = s.loadByte a) :
    drwHits t x y n = drwHits s x y n := by
  funext r c
  simp only [drwHits, State.indexed, hx, hy, hI, hmem]

/-- Settles O51: both passes hit the same pixels, so each pixel is toggled an even number of times. -/
theorem doubleDrawRestoresScreen : Obligations.DoubleDrawRestoresScreen := by
  intro x y n s t u hx hy hfirst hsecond
  obtain ⟨-, -, hframe, hpixel, -, -, -, hregs⟩ := (drawTogglesHitPixels x y n s).of_exec hfirst
  obtain ⟨-, -, -, hpixel', -, hflag, -, -⟩ := (drawTogglesHitPixels x y n t).of_exec hsecond
  have hhits : drwHits t x y n = drwHits s x y n :=
    drwHits_congr (hregs x (by simpa using hx)) (hregs y (by simpa using hy))
      (hframe .index (by decide)) (hframe .memory (by decide))
  rw [hhits] at hflag hpixel'
  refine ⟨Framebuffer.ext_pixel fun r c => ?_, hflag⟩
  rw [hpixel', hpixel, Bool.xor_assoc, Bool.xor_self, Bool.xor_false]

end Sys2Proof.Machine
end

section
/-! PROOFS. What every instruction may write and where it goes: O21 to O27 (spec/41_flow.md R100,
spec/10_state.md sections 2 to 7, spec/20_memory.md, spec/60_exceptions.md). Everything here is read off the
statements about the single instructions. -/

namespace Sys2Proof.Machine

/-! ### One table for all instructions -/

/-- The parts of the state an instruction may write. -/
def writtenParts : Instr → List Part
  | .cls => [.pc, .result, .screen, .redraw]
  | .drw _ _ _ => [.pc, .result, .regs, .screen, .redraw]
  | .ret | .call _ => [.pc, .result, .stack, .fault]
  | .jp _ | .jpo _ | .sei _ _ | .snei _ _ | .ser _ _ | .sner _ _ | .skp _ | .sknp _ => [.pc, .result]
  | .ldb _ _ | .addb _ _ | .mov _ _ | .or _ _ | .and _ _ | .xor _ _ | .add _ _ | .sub _ _ | .shr _ _
  | .subn _ _ | .shl _ _ | .gdt _ | .wkey _ | .load _ => [.pc, .result, .regs]
  | .rnd _ _ => [.pc, .result, .regs, .random]
  | .ldi _ | .ldf _ => [.pc, .result, .index]
  | .addi _ => [.pc, .result, .regs, .index]
  | .bcd _ | .dump _ => [.pc, .result, .memory]
  | .sdt _ => [.pc, .result, .delay]
  | .sst _ => [.pc, .result, .sound]

section
variable {i : Instr}

theorem memory_mem_writtenParts :
    Part.memory ∈ writtenParts i ↔ (∃ x, i = .bcd x) ∨ ∃ x, i = .dump x := by
  cases i <;> simp [writtenParts]

theorem index_mem_writtenParts :
    Part.index ∈ writtenParts i ↔ (∃ nnn, i = .ldi nnn) ∨ (∃ x, i = .addi x) ∨ ∃ x, i = .ldf x := by
  cases i <;> simp [writtenParts]

theorem stack_mem_writtenParts : Part.stack ∈ writtenParts i ↔ (∃ nnn, i = .call nnn) ∨ i = .ret := by
  cases i <;> simp [writtenParts]

theorem fault_mem_writtenParts : Part.fault ∈ writtenParts i ↔ (∃ nnn, i = .call nnn) ∨ i = .ret := by
  cases i <;> simp [writtenParts]

theorem delay_mem_writtenParts : Part.delay ∈ writtenParts i ↔ ∃ x, i = .sdt x := by
  cases i <;> simp [writtenParts]

theorem sound_mem_writtenParts : Part.sound ∈ writtenParts i ↔ ∃ x, i = .sst x := by
  cases i <;> simp [writtenParts]

theorem screen_mem_writtenParts :
    Part.screen ∈ writtenParts i ↔ i = .cls ∨ ∃ x y n, i = .drw x y n := by
  cases i <;> simp [writtenParts]

theorem redraw_mem_writtenParts :
    Part.redraw ∈ writtenParts i ↔ i = .cls ∨ ∃ x y n, i = .drw x y n := by
  cases i <;> simp [writtenParts]

theorem keys_notMem_writtenParts : Part.keys ∉ writtenParts i := by
  cases i <;> simp [writtenParts]

theorem params_notMem_writtenParts : Part.params ∉ writtenParts i := by
  cases i <;> simp [writtenParts]

theorem events_notMem_writtenParts : Part.events ∉ writtenParts i := by
  cases i <;> simp [writtenParts]

end

/-- What is common to all instructions: `pc` by the table of R100, a frame, and who may raise. -/
structure Effect (i : Instr) (s t : State) : Prop where
  pc : t.pc = nextPc i s
  frame : KeepsAllBut (writtenParts i) s t
  raises : t.result = some .faulted → (∃ nnn, i = .call nnn) ∨ i = .ret

/-- The effect of an instruction that completes. -/
theorem Completes.effect {i : Instr} {s t : State} {target : Word} {parts : List Part} {post : State → Prop}
    (h : Completes i s target parts post) (hexec : exec i s = .next t) (htarget : target = nextPc i s)
    (hparts : .pc :: .result :: parts = writtenParts i) : Effect i s t := by
  obtain ⟨hresult, hpc, hframe, -⟩ := h.of_exec hexec
  exact ⟨hpc.trans htarget, hparts ▸ hframe, by simp [hresult]⟩

theorem Completes.post_of_exec {i : Instr} {s t : State} {target : Word} {parts : List Part}
    {post : State → Prop} (h : Completes i s target parts post) (hexec : exec i s = .next t) : post t := by
  obtain ⟨-, -, -, hpost⟩ := h.of_exec hexec
  exact hpost

theorem highestKey_eq_none_iff (keys : Keys) : highestKey keys = none ↔ keys = 0 := by
  refine highestBelow_eq_none.trans ⟨fun h => BitVec.eq_of_getLsbD_eq fun k hk => ?_, ?_⟩
  · rw [h k hk]; exact BitVec.getLsbD_zero.symm
  · rintro rfl k -; exact BitVec.getLsbD_zero

theorem nextPc_ret_of_pos {s : State} (h : 0 < s.SP.val) :
    nextPc .ret s = s.stack[s.SP.val - 1]'(by omega) + 2 := dif_pos h

theorem nextPc_ret_of_zero {s : State} (h : s.SP.val = 0) : nextPc .ret s = s.pc :=
  dif_neg (Nat.not_lt.2 h.le)

theorem effect_ret {s t : State} (h : exec .ret s = .next t) : Effect .ret s t := by
  obtain ⟨hpos, rfl⟩ | ⟨hzero, rfl⟩ := execRet_cases h
  · exact ⟨(nextPc_ret_of_pos hpos).symm,
      (keepsAllBut_pc_result_stack s _ _ _ _).mono (by simp [writtenParts]), nofun⟩
  · exact ⟨(nextPc_ret_of_zero hzero).symm,
      (keepsAllBut_fault_result s _ _ _ _).mono (by simp [writtenParts]), fun _ => .inr rfl⟩

theorem effect_call {nnn : Addr} {s t : State} (h : exec (.call nnn) s = .next t) :
    Effect (.call nnn) s t := by
  obtain ⟨hroom, rfl⟩ | ⟨hfull, rfl⟩ := execCall_cases h
  · exact ⟨(if_pos hroom).symm,
      (keepsAllBut_pc_result_stack s _ _ _ _).mono (by simp [writtenParts]), nofun⟩
  · exact ⟨(if_neg (by omega)).symm,
      (keepsAllBut_fault_result s _ _ _ _).mono (by simp [writtenParts]), fun _ => .inl ⟨nnn, rfl⟩⟩

theorem effect_wkey {x : Reg} {s t : State} (h : exec (.wkey x) s = .next t) : Effect (.wkey x) s t := by
  obtain ⟨k, hk, rfl⟩ | ⟨hnone, rfl⟩ := execWkey_cases h
  · have hkey : s.key ≠ 0 := fun h0 => by simp [(highestKey_eq_none_iff s.key).2 h0] at hk
    exact ⟨(if_neg hkey).symm, keepsAllBut_pc_result_regs s _ _ _, nofun⟩
  · exact ⟨(if_pos ((highestKey_eq_none_iff s.key).1 hnone)).symm,
      (keepsAllBut_result s _).mono (by simp [writtenParts]), nofun⟩

theorem effect_rnd {x : Reg} {nn : Byte} {s t : State} (h : exec (.rnd x nn) s = .next t) :
    Effect (.rnd x nn) s t := by
  cases hbytes : s.rndIn with
  | nil => exact ((randomAndMasksDrawnByte x nn s).2 hbytes).effect h rfl rfl
  | cons r rest => exact ((randomAndMasksDrawnByte x nn s).1 r rest hbytes).effect h rfl rfl

/-- Every instruction that answers a next state has the effect of the tables, by the statement about it. -/
theorem exec_effect {i : Instr} {s t : State} (h : exec i s = .next t) : Effect i s t := by
  cases i with
  | cls => exact (clearScreenZeroesAll s).effect h rfl rfl
  | ret => exact effect_ret h
  | jp nnn => exact (jumpSetsPc nnn s).effect h rfl rfl
  | call nnn => exact effect_call h
  | sei x nn => exact (skipOnImmediate x nn s).1.effect h (by simp only [nextPc, BitVec.toNat_inj]) rfl
  | snei x nn =>
    exact (skipOnImmediate x nn s).2.effect h (by simp only [nextPc, BitVec.toNat_inj, ne_eq, ite_not]) rfl
  | ser x y => exact (skipOnRegisters x y s).1.effect h (by simp only [nextPc, BitVec.toNat_inj]) rfl
  | sner x y =>
    exact (skipOnRegisters x y s).2.effect h (by simp only [nextPc, BitVec.toNat_inj, ne_eq, ite_not]) rfl
  | ldb x nn => exact (loadAndAddImmediate x nn s).1.effect h rfl rfl
  | addb x nn => exact (loadAndAddImmediate x nn s).2.effect h rfl rfl
  | mov x y => exact (moveAndLogic x y s).1.effect h rfl rfl
  | or x y =>
    obtain ⟨-, hor, -, -⟩ := moveAndLogic x y s
    exact hor.effect h rfl rfl
  | and x y =>
    obtain ⟨-, -, hand, -⟩ := moveAndLogic x y s
    exact hand.effect h rfl rfl
  | xor x y =>
    obtain ⟨-, -, -, hxor⟩ := moveAndLogic x y s
    exact hxor.effect h rfl rfl
  | add x y => exact (addSetsCarryThenSum x y s).effect h rfl rfl
  | sub x y => exact (subtractSetsNoBorrowThenDifference x y s).1.effect h rfl rfl
  | subn x y => exact (subtractSetsNoBorrowThenDifference x y s).2.effect h rfl rfl
  | shr x y => exact (shiftSetsBitOutThenShift x y s).1.effect h rfl rfl
  | shl x y => exact (shiftSetsBitOutThenShift x y s).2.effect h rfl rfl
  | ldi nnn => exact (indexLoads nnn 0 s).1.effect h rfl rfl
  | jpo nnn => exact (jumpOffsetAddsRegisterZero nnn s).effect h (addrWord_add_byteWord nnn _).symm rfl
  | rnd x nn => exact effect_rnd h
  | drw x y n => exact (drawTogglesHitPixels x y n s).effect h rfl rfl
  | skp x => exact (skipOnKey x s).1.effect h rfl rfl
  | sknp x =>
    refine (skipOnKey x s).2.effect h ?_ rfl
    simp only [nextPc, ← Bool.not_eq_true, ite_not]
  | gdt x => exact (delayTimerReadAndSet x s).1.effect h rfl rfl
  | wkey x => exact effect_wkey h
  | sdt x => exact (delayTimerReadAndSet x s).2.effect h rfl rfl
  | sst x => exact (soundTimerSet x s).effect h rfl rfl
  | addi x => exact (addToIndexFlagsOverflow x s).effect h rfl rfl
  | ldf x => exact (indexLoads 0 x s).2.effect h rfl rfl
  | bcd x => exact (bcdStoresDigits x s).effect h rfl rfl
  | dump x => exact (dumpStoresRegisters x s).effect h rfl rfl
  | load x => exact (loadFillsRegisters x s).effect h rfl rfl

/-! ### The whole-machine rules -/

/-- Settles O21: `pc` is in every instruction's effect, and an unrecognised word is passed over. -/
theorem pcFollowsTable : Obligations.PcFollowsTable := by
  refine ⟨fun i s t h => (exec_effect h).pc, fun s t e hfault hd h => ?_⟩
  obtain rfl := Host.Outcome.next.inj ((step_of_error hfault hd).symm.trans h)
  exact State.keepsAllBut_endCycle _ .pc (by decide)

/-- Settles O24: only these three have the index register among their parts. -/
theorem onlyIndexInstructionsWriteI : Obligations.OnlyIndexInstructionsWriteI := fun _ _ _ h hI =>
  index_mem_writtenParts.1 (by_contra fun hnot => hI ((exec_effect h).frame .index hnot))

/-- Settles O26: only `CALL` and `RET` have the latch among their parts, or raise. -/
theorem onlyCallAndReturnRaise : Obligations.OnlyCallAndReturnRaise := by
  intro i s t h hcall hret
  have hother : ¬ ((∃ nnn, i = .call nnn) ∨ i = .ret) := by simp [hcall, hret]
  exact ⟨(exec_effect h).frame .fault (mt fault_mem_writtenParts.1 hother),
    mt (exec_effect h).raises hother⟩

theorem exec_redraw_of_display {i : Instr} {s t : State} (h : exec i s = .next t)
    (hi : i = .cls ∨ ∃ x y n, i = .drw x y n) : t.redraw = true := by
  obtain rfl | ⟨x, y, n, rfl⟩ := hi
  · obtain ⟨-, hredraw⟩ := (clearScreenZeroesAll s).post_of_exec h
    exact hredraw
  · obtain ⟨-, -, -, hredraw, -⟩ := (drawTogglesHitPixels x y n s).post_of_exec h
    exact hredraw

/-- Settles O27: who has the display and the timers among the parts, and that nobody has the rest. -/
theorem displayAndTimersWrittenByTheirOwn : Obligations.DisplayAndTimersWrittenByTheirOwn := by
  intro i s t h
  have hframe := (exec_effect h).frame
  refine ⟨fun ⟨hcls, hdrw⟩ => ?_, exec_redraw_of_display h, fun hsdt => ?_, fun hsst => ?_,
    hframe .keys keys_notMem_writtenParts, hframe .params params_notMem_writtenParts,
    hframe .events events_notMem_writtenParts⟩
  · have hother : ¬ (i = .cls ∨ ∃ x y n, i = .drw x y n) := by simp [hcls, hdrw]
    exact ⟨hframe .screen (mt screen_mem_writtenParts.1 hother),
      hframe .redraw (mt redraw_mem_writtenParts.1 hother)⟩
  · exact hframe .delay (mt delay_mem_writtenParts.1 (not_exists.2 hsdt))
  · exact hframe .sound (mt sound_mem_writtenParts.1 (not_exists.2 hsst))

/-- Settles O25: `CALL` writes the entry at the old stack pointer, `RET` no entry. -/
theorem onlyCallAndReturnMoveStack : Obligations.OnlyCallAndReturnMoveStack := by
  intro i s t h
  by_cases hi : (∃ nnn, i = .call nnn) ∨ i = .ret
  · obtain ⟨nnn, rfl⟩ | rfl := hi
    · obtain ⟨hroom, rfl⟩ | ⟨hfull, rfl⟩ := execCall_cases h
      · refine ⟨fun hcall => absurd rfl (hcall nnn), fun _ _ => .inr rfl, nofun, fun k hk => ?_⟩
        exact Vector.getElem_set_ne hroom k.isLt hk.ne'
      · exact ⟨fun _ _ => ⟨rfl, rfl⟩, fun _ _ => .inl rfl, nofun, fun _ _ => rfl⟩
    · obtain ⟨hpos, rfl⟩ | ⟨hzero, rfl⟩ := execRet_cases h
      · have hSP : s.SP.val - 1 + 1 = s.SP.val := by omega
        exact ⟨fun _ hret => absurd rfl hret, nofun, fun _ => ⟨rfl, .inr hSP⟩, fun _ _ => rfl⟩
      · exact ⟨fun _ hret => absurd rfl hret, nofun, fun _ => ⟨rfl, .inl rfl⟩, fun _ _ => rfl⟩
  · obtain ⟨hstack, hSP⟩ := (exec_effect h).frame .stack (mt stack_mem_writtenParts.1 hi)
    exact ⟨fun _ _ => ⟨hstack, hSP⟩, fun _ _ => .inl hSP, fun _ => ⟨hstack, .inl hSP⟩,
      fun k _ => by rw [hstack]⟩

/-- Settles O23: `BCD` and `DUMP` keep every byte but those they store, and no other instruction has memory
among its parts. -/
theorem onlyStoredBytesChange : Obligations.OnlyStoredBytesChange := by
  intro i s t h
  by_cases hi : (∃ x, i = .bcd x) ∨ ∃ x, i = .dump x
  · obtain ⟨x, rfl⟩ | ⟨x, rfl⟩ := hi
    · obtain rfl := Host.Outcome.next.inj ((exec_bcd x s).symm.trans h)
      obtain ⟨-, -, -, hrest⟩ :=
        loadByte_storeByte_three s (hundreds (s.reg x)) (tens (s.reg x)) (ones (s.reg x))
      exact hrest
    · obtain ⟨-, hrest⟩ := (dumpStoresRegisters x s).post_of_exec h
      exact hrest
  · exact fun a _ => (exec_effect h).frame .memory (mt memory_mem_writtenParts.1 hi) a

theorem keepsRegsBut_of_exec_eq_writeResult {i : Instr} {s t : State} {x : Reg} {v : Byte}
    (hexec : exec i s = writeResult x v s) (h : exec i s = .next t) : KeepsRegsBut [x] s t :=
  (completes_of_exec_eq_writeResult hexec fun _ _ hrest => hrest).post_of_exec h

theorem keepsRegsBut_of_exec_eq_flagThenResult {i : Instr} {s t : State} {x a b : Reg}
    {flag result : Byte → Byte → Byte} (hexec : exec i s = flagThenResult x a b flag result s)
    (h : exec i s = .next t) : KeepsRegsBut [x, flagReg] s t :=
  (completes_of_exec_eq_flagThenResult _ rfl hexec fun _ _ _ hrest => hrest).post_of_exec h

theorem keepsRegsBut_load {x : Reg} {s t : State} (h : exec (.load x) s = .next t) :
    KeepsRegsBut (destRegs (.load x)) s t := by
  intro r hr
  obtain ⟨-, habove⟩ := (loadFillsRegisters x s).post_of_exec h
  refine habove r (Nat.lt_of_not_le fun hle => hr ?_)
  have hmem := List.mem_map_of_mem (f := BitVec.ofNat 4) (List.mem_range.2 (Nat.lt_succ_of_le hle))
  rwa [BitVec.ofNat_toNat, BitVec.setWidth_eq] at hmem

/-- Settles O22, by the operation that each instruction writes its registers with. -/
theorem onlyDestinationRegistersChange : Obligations.OnlyDestinationRegistersChange := by
  intro i s t h
  cases i with
  | ldb | addb | mov | or | and | xor | gdt => exact keepsRegsBut_of_exec_eq_writeResult rfl h
  | add x y => exact keepsRegsBut_of_exec_eq_flagThenResult (exec_add x y s) h
  | sub x y => exact keepsRegsBut_of_exec_eq_flagThenResult (exec_sub x y s) h
  | subn x y => exact keepsRegsBut_of_exec_eq_flagThenResult (exec_subn x y s) h
  | shr x y => exact keepsRegsBut_of_exec_eq_flagThenResult (exec_shr x y s) h
  | shl x y => exact keepsRegsBut_of_exec_eq_flagThenResult (exec_shl x y s) h
  | rnd x nn =>
    obtain rfl := execRnd_cases h
    exact s.keepsRegsBut_setReg x _
  | wkey x =>
    obtain ⟨k, -, rfl⟩ | ⟨-, rfl⟩ := execWkey_cases h
    · exact s.keepsRegsBut_setReg x _
    · exact fun _ _ => rfl
  | drw x y n =>
    obtain ⟨-, -, -, hregs⟩ := (completes_drw x y n s).post_of_exec h
    exact hregs
  | addi x =>
    obtain ⟨-, -, hregs⟩ := (addToIndexFlagsOverflow x s).post_of_exec h
    exact hregs
  | load => exact keepsRegsBut_load h
  | _ => exact fun r _ => (exec_effect h).frame .regs (by simp [writtenParts]) r

end Sys2Proof.Machine
end

section
/-! PROOFS. What no instruction but its own reads: O28 and O29 (spec/60_exceptions.md sections 1 and 2,
spec/10_state.md section 7). -/

namespace Sys2Proof.Machine

/-- Other values for the keys, the sound timer, the redraw flag and the fault latch with its record; `none`
leaves the value of the state. -/
structure Overlay where
  key : Option Keys
  ST : Option Byte
  redraw : Option Bool
  latch : Option (Bool × Option StackCondition × Word)

/-- The state with the values of an overlay. -/
def Overlay.apply (o : Overlay) (s : State) : State :=
  let latch := o.latch.getD (s.fault, s.faultCause, s.faultPc)
  { s with
    key := o.key.getD s.key, ST := o.ST.getD s.ST, redraw := o.redraw.getD s.redraw,
    fault := latch.1, faultCause := latch.2.1, faultPc := latch.2.2 }

/-- The overlay leaves what the instruction reads or overwrites. -/
def Overlay.HiddenFrom (o : Overlay) : Instr → Prop
  | .skp _ | .sknp _ | .wkey _ => o.key = none
  | .sst _ => o.ST = none
  | .cls | .drw _ _ _ => o.redraw = none
  | .ret | .call _ => o.latch = none
  | _ => True

theorem Overlay.drawRnd_apply (o : Overlay) (s : State) :
    (o.apply s).drawRnd = (s.drawRnd.1, o.apply s.drawRnd.2) := by
  cases h : s.rndIn with
  | nil => rw [State.drawRnd_nil h, State.drawRnd_nil (s := o.apply s) h]; rfl
  | cons r rest => rw [State.drawRnd_cons h, State.drawRnd_cons (s := o.apply s) h]; rfl

theorem Overlay.dumpRegs_apply (o : Overlay) (s : State) (n : Nat) :
    (o.apply s).dumpRegs n = o.apply (s.dumpRegs n) := by
  induction n with
  | zero => rfl
  | succ k ih => rw [State.dumpRegs, ih]; rfl

theorem Overlay.loadRegs_apply (o : Overlay) (s : State) (n : Nat) :
    (o.apply s).loadRegs n = o.apply (s.loadRegs n) := by
  induction n with
  | zero => rfl
  | succ k ih => rw [State.loadRegs, ih]; rfl

/-- An instruction does the same under an overlay that is hidden from it. -/
theorem exec_apply {o : Overlay} {i : Instr} {s t : State} (ho : o.HiddenFrom i) (h : exec i s = .next t) :
    exec i (o.apply s) = .next (o.apply t) := by
  obtain ⟨key, sound, redraw, latch⟩ := o
  cases i with
  | skp | sknp =>
    obtain rfl : key = none := ho
    obtain rfl := Host.Outcome.next.inj h
    rfl
  | wkey x =>
    obtain rfl : key = none := ho
    obtain ⟨k, hk, rfl⟩ | ⟨hnone, rfl⟩ := execWkey_cases h
    · exact exec_wkey_of_highestKey_some x hk
    · exact exec_wkey_of_highestKey_none x hnone
  | sst =>
    obtain rfl : sound = none := ho
    obtain rfl := Host.Outcome.next.inj h
    rfl
  | cls | drw =>
    obtain rfl : redraw = none := ho
    obtain rfl := Host.Outcome.next.inj h
    rfl
  | ret =>
    obtain rfl : latch = none := ho
    obtain ⟨hpos, rfl⟩ | ⟨hzero, rfl⟩ := execRet_cases h
    · exact exec_ret_of_pos (s := Overlay.apply _ s) hpos
    · exact exec_ret_of_zero (s := Overlay.apply _ s) hzero
  | call nnn =>
    obtain rfl : latch = none := ho
    obtain ⟨hroom, rfl⟩ | ⟨hfull, rfl⟩ := execCall_cases h
    · exact exec_call_of_lt nnn (s := Overlay.apply _ s) hroom
    · exact exec_call_of_full nnn (s := Overlay.apply _ s) hfull
  | rnd x nn =>
    obtain rfl := Host.Outcome.next.inj h
    rw [exec_rnd, Overlay.drawRnd_apply]
    rfl
  | dump x =>
    obtain rfl := Host.Outcome.next.inj h
    rw [exec_dump, Overlay.dumpRegs_apply]
    rfl
  | load x =>
    obtain rfl := Host.Outcome.next.inj h
    rw [exec_load, Overlay.loadRegs_apply]
    rfl
  | _ =>
    obtain rfl := Host.Outcome.next.inj h
    rfl

theorem Overlay.hiddenFrom_of {o : Overlay} {i : Instr}
    (hkey : o.key = none ∨ (∀ x, i ≠ .skp x) ∧ (∀ x, i ≠ .sknp x) ∧ ∀ x, i ≠ .wkey x)
    (hST : o.ST = none ∨ ∀ x, i ≠ .sst x)
    (hredraw : o.redraw = none ∨ i ≠ .cls ∧ ∀ x y n, i ≠ .drw x y n)
    (hlatch : o.latch = none ∨ (∀ nnn, i ≠ .call nnn) ∧ i ≠ .ret) : o.HiddenFrom i := by
  cases i <;> simp_all [Overlay.HiddenFrom]

/-- Settles O28: an overlay of the keys is hidden from every instruction but the three. -/
theorem onlyKeyInstructionsSeeKeys : Obligations.OnlyKeyInstructionsSeeKeys :=
  fun _ _ _ k hskp hsknp hwkey h =>
    exec_apply (o := ⟨some k, none, none, none⟩)
      (Overlay.hiddenFrom_of (.inr ⟨hskp, hsknp, hwkey⟩) (.inl rfl) (.inl rfl) (.inl rfl)) h

/-- Settles O29: overlays of the sound timer, the redraw flag and the latch are hidden from every instruction
but those that overwrite them. -/
theorem unreadableStateIsNotRead : Obligations.UnreadableStateIsNotRead := by
  intro i s t v b c a h
  refine ⟨fun hsst => ?_, ?_, fun hcls hdrw => ?_, ?_, fun hcall hret => ?_⟩
  · exact exec_apply (o := ⟨none, some v, none, none⟩)
      (Overlay.hiddenFrom_of (.inl rfl) (.inr hsst) (.inl rfl) (.inl rfl)) h
  · rintro x rfl
    exact h
  · exact exec_apply (o := ⟨none, none, some b, none⟩)
      (Overlay.hiddenFrom_of (.inl rfl) (.inl rfl) (.inr ⟨hcls, hdrw⟩) (.inl rfl)) h
  · rintro (rfl | ⟨x, y, n, rfl⟩)
    · exact h
    · exact h
  · exact exec_apply (o := ⟨none, none, none, some (b, c, a)⟩)
      (Overlay.hiddenFrom_of (.inl rfl) (.inl rfl) (.inl rfl) (.inr ⟨hcall, hret⟩)) h

end Sys2Proof.Machine
end

section
/-! PROOFS. Whole cycles: O5, O9, O13, O14, O15, O16 and O18 (spec/40_cycle.md, spec/60_exceptions.md). -/

namespace Sys2Proof.Machine

/-! ### Every cycle answers a next state -/

theorem exec_answers (i : Instr) (s : State) : ∃ t, exec i s = .next t := by
  cases i with
  | ret =>
    rcases Nat.eq_zero_or_pos s.SP.val with hzero | hpos
    · exact ⟨_, exec_ret_of_zero hzero⟩
    · exact ⟨_, exec_ret_of_pos hpos⟩
  | call nnn =>
    rcases Nat.lt_or_ge s.SP.val 16 with hroom | hfull
    · exact ⟨_, exec_call_of_lt nnn hroom⟩
    · exact ⟨_, exec_call_of_full nnn (by omega)⟩
  | wkey x =>
    cases hkey : highestKey s.key with
    | none => exact ⟨_, exec_wkey_of_highestKey_none x hkey⟩
    | some k => exact ⟨_, exec_wkey_of_highestKey_some x hkey⟩
  | _ => exact ⟨_, rfl⟩

/-- Settles O15: the latch is set, or the word is unrecognised, or its instruction answers a next state. -/
theorem everyStepAnswersNext : Obligations.EveryStepAnswersNext := by
  intro s
  cases hfault : s.fault with
  | true => exact ⟨_, step_of_fault hfault⟩
  | false =>
    cases hd : decode s.fetch with
    | error e => exact ⟨_, step_of_error hfault hd⟩
    | ok i =>
      obtain ⟨u, hu⟩ := exec_answers i s.beginCycle
      exact ⟨_, step_of_exec_next hfault hd hu⟩

/-- What a cycle was, from the state it answers (R90). -/
theorem step_cases {s t : State} (h : step s = .next t) :
    (s.fault = true ∧ t = s.beginCycle.halt) ∨
    (s.fault = false ∧ ∃ e, decode s.fetch = .error e ∧ t = (s.beginCycle.reportUnknown s.fetch).endCycle) ∨
    (s.fault = false ∧ ∃ i u, decode s.fetch = .ok i ∧ exec i s.beginCycle = .next u ∧ t = u.endCycle) := by
  cases hfault : s.fault with
  | true => exact .inl ⟨rfl, Host.Outcome.next.inj (h.symm.trans (step_of_fault hfault))⟩
  | false =>
    cases hd : decode s.fetch with
    | error e =>
      exact .inr (.inl ⟨rfl, e, rfl, Host.Outcome.next.inj (h.symm.trans (step_of_error hfault hd))⟩)
    | ok i =>
      obtain ⟨u, hu⟩ := exec_answers i s.beginCycle
      exact .inr (.inr ⟨rfl, i, u, rfl, hu,
        Host.Outcome.next.inj (h.symm.trans (step_of_exec_next hfault hd hu))⟩)

/-! ### The invariant -/

/-- Every instruction keeps the canonical form of memory: only `BCD` and `DUMP` store, byte by byte. -/
theorem exec_keeps_memory_wf {i : Instr} {s t : State} (h : exec i s = .next t)
    (hwf : Memory.wf s.font s.mem) : Memory.wf t.font t.mem := by
  cases i with
  | bcd x =>
    obtain rfl := Host.Outcome.next.inj h
    exact State.storeByte_wf _ _ (State.storeByte_wf _ _ (State.storeByte_wf _ _ hwf))
  | dump x =>
    obtain rfl := Host.Outcome.next.inj h
    exact State.dumpRegs_wf _ hwf
  | load x =>
    obtain rfl := execLoad_cases h
    exact hwf
  | rnd x nn =>
    obtain rfl := execRnd_cases h
    exact hwf
  | ret =>
    obtain ⟨-, rfl⟩ | ⟨-, rfl⟩ := execRet_cases h
    · exact hwf
    · exact hwf
  | call nnn =>
    obtain ⟨-, rfl⟩ | ⟨-, rfl⟩ := execCall_cases h
    · exact hwf
    · exact hwf
  | wkey x =>
    obtain ⟨-, -, rfl⟩ | ⟨-, rfl⟩ := execWkey_cases h
    · exact hwf
    · exact hwf
  | _ =>
    obtain rfl := Host.Outcome.next.inj h
    exact hwf

/-- Every instruction keeps the latch in step with its record: a raise writes both. -/
theorem exec_keeps_latch {i : Instr} {s t : State} (h : exec i s = .next t)
    (hlatch : s.fault = true ↔ s.faultCause ≠ none) : t.fault = true ↔ t.faultCause ≠ none := by
  by_cases hi : (∃ nnn, i = .call nnn) ∨ i = .ret
  · obtain ⟨nnn, rfl⟩ | rfl := hi
    · obtain ⟨-, rfl⟩ | ⟨-, rfl⟩ := execCall_cases h
      · exact hlatch
      · simp
    · obtain ⟨-, rfl⟩ | ⟨-, rfl⟩ := execRet_cases h
      · exact hlatch
      · simp
  · obtain ⟨hfault, hcause, -⟩ := (exec_effect h).frame .fault (mt fault_mem_writtenParts.1 hi)
    rwa [hfault, hcause]

theorem exec_keeps_inv {i : Instr} {s t : State} (h : exec i s = .next t) (hinv : s.Inv) : t.Inv :=
  ⟨exec_keeps_memory_wf h hinv.1, exec_keeps_latch h hinv.2⟩

theorem State.endCycle_keeps_inv {t : State} (h : t.Inv) : t.endCycle.Inv := by
  rw [State.endCycle_frame]
  exact h

/-- Settles O16: the start of a cycle, a halt, a report and the end of a cycle write neither memory nor the
latch, and every instruction keeps the invariant. -/
theorem stepKeepsStateInv : Obligations.StepKeepsStateInv := by
  intro s t hinv h
  obtain ⟨-, rfl⟩ | ⟨-, e, -, rfl⟩ | ⟨-, i, u, -, hu, rfl⟩ := step_cases h
  · exact hinv
  · exact State.endCycle_keeps_inv hinv
  · exact State.endCycle_keeps_inv (exec_keeps_inv hu hinv)

/-! ### The redraw flag -/

theorem State.keepsAllBut_ackRedraw (s : State) : KeepsAllBut [.redraw] s s.ackRedraw := by
  intro p hp
  cases p with
  | redraw => simp at hp
  | regs | memory => exact fun _ => rfl
  | stack | keys | random | params | events => exact ⟨rfl, rfl⟩
  | fault => exact ⟨rfl, rfl, rfl⟩
  | index | pc | delay | sound | screen | result => rfl

theorem exec_keeps_redraw_set {i : Instr} {s t : State} (h : exec i s = .next t) (hset : s.redraw = true) :
    t.redraw = true := by
  by_cases hi : i = .cls ∨ ∃ x y n, i = .drw x y n
  · exact exec_redraw_of_display h hi
  · exact ((exec_effect h).frame .redraw (mt redraw_mem_writtenParts.1 hi)).trans hset

/-- Settles O5: no part of a cycle clears the flag. -/
theorem redrawClearedOnlyByAcknowledge : Obligations.RedrawClearedOnlyByAcknowledge := by
  refine ⟨fun s => ⟨rfl, s.keepsAllBut_ackRedraw⟩, fun s t h hset => ?_⟩
  have hend (u : State) : u.endCycle.redraw = u.redraw := u.keepsAllBut_endCycle .redraw (by decide)
  obtain ⟨-, rfl⟩ | ⟨-, e, -, rfl⟩ | ⟨-, i, u, -, hu, rfl⟩ := step_cases h
  · exact hset
  · exact (hend _).trans hset
  · exact (hend u).trans (exec_keeps_redraw_set hu hset)

/-! ### Unrecognised words -/

theorem State.keepsAllBut_reportUnknown (s : State) (w : Word) :
    KeepsAllBut [.pc, .result, .events] s (s.reportUnknown w) := by
  intro p hp
  cases p with
  | pc | result | events => simp at hp
  | regs | memory => exact fun _ => rfl
  | stack | keys | random | params => exact ⟨rfl, rfl⟩
  | fault => exact ⟨rfl, rfl, rfl⟩
  | index | delay | sound | screen | redraw => rfl

/-- Settles O9: a word that the dispatcher does not recognise is reported, and the cycle ticks. -/
theorem unrecognisedWordReportsAndAdvances : Obligations.UnrecognisedWordReportsAndAdvances := by
  refine ⟨decode_error_iff, fun s hfault hw => ?_⟩
  obtain ⟨e, hd⟩ := (decode_error_iff s.fetch).2 hw
  refine ⟨_, step_of_error hfault hd, State.endCycle_result _,
    State.keepsAllBut_endCycle _ .pc (by decide), State.endCycle_unknown _, State.endCycle_DT_toNat rfl,
    State.endCycle_ST_toNat rfl, State.endCycle_beep_iff rfl rfl, ?_⟩
  exact ((s.keepsAllBut_beginCycle.trans (State.keepsAllBut_reportUnknown _ _)).trans
    (State.keepsAllBut_endCycle _)).mono (by decide)

/-! ### Stack conditions -/

/-- A cycle whose instruction raises a condition ends as the raise leaves it. -/
theorem step_of_raise {s : State} {i : Instr} {c : StackCondition} (hfault : s.fault = false)
    (hd : decode s.fetch = .ok i) (hexec : exec i s.beginCycle = s.beginCycle.raise c) :
    ∃ t, step s = .next t ∧ t.fault = true ∧ t.faultCause = some c ∧ t.faultPc = s.pc ∧
      t.result = some .faulted ∧ t.beep = false ∧ t.unknown = none ∧
      KeepsAllBut [.fault, .result, .events, .keys] s t := by
  have hstep := step_of_exec_next hfault hd hexec
  rw [State.endCycle_of_not_advanced (by simp)] at hstep
  exact ⟨_, hstep, rfl, rfl, rfl, rfl, rfl, rfl,
    (s.keepsAllBut_beginCycle.trans (keepsAllBut_fault_result _ _ _ _ _)).mono (by decide)⟩

/-- Settles O18: `CALL` on a full stack and `RET` on an empty one raise their conditions. -/
theorem stackConditionLatchesFault : Obligations.StackConditionLatchesFault := fun _ hfault =>
  ⟨fun nnn hd hfull => step_of_raise hfault hd (exec_call_of_full nnn hfull),
    fun hd hzero => step_of_raise hfault hd (exec_ret_of_zero hzero)⟩

/-! ### The timers and the beep -/

/-- A cycle from `s` comes to its end in `u`: no beep is pending, and the timers are as before but for what
`SDT` or `SST` has set. -/
structure ReachesEnd (s u : State) : Prop where
  beep : u.beep = false
  delay : (∀ x, decode s.fetch ≠ .ok (.sdt x)) → u.DT = s.DT
  sound : (∀ x, decode s.fetch ≠ .ok (.sst x)) → u.ST = s.ST
  delaySet : u.result = some .advanced → ∀ x, decode s.fetch = .ok (.sdt x) → u.DT = s.reg x
  soundSet : u.result = some .advanced → ∀ x, decode s.fetch = .ok (.sst x) → u.ST = s.reg x
  idle : u.result ≠ some .advanced → u.DT = s.DT ∧ u.ST = s.ST

theorem reachesEnd_of_exec {s u : State} {i : Instr} (hd : decode s.fetch = .ok i)
    (hu : exec i s.beginCycle = .next u) : ReachesEnd s u := by
  obtain ⟨-, -, hDT, hST, -, -, hevents⟩ := displayAndTimersWrittenByTheirOwn i _ _ hu
  have hinj {j : Instr} (hj : decode s.fetch = .ok j) : i = j := Except.ok.inj (hd.symm.trans hj)
  refine ⟨hevents.1, fun hne => hDT fun x hi => hne x (hi ▸ hd), fun hne => hST fun x hi => hne x (hi ▸ hd),
    fun _ x hx => ?_, fun _ x hx => ?_, fun hresult => ⟨hDT ?_, hST ?_⟩⟩
  · obtain rfl := hinj hx
    obtain ⟨hset, -⟩ := (delayTimerReadAndSet x s.beginCycle).2.post_of_exec hu
    exact hset
  · obtain rfl := hinj hx
    obtain ⟨hset, -⟩ := (soundTimerSet x s.beginCycle).post_of_exec hu
    exact hset
  · rintro x rfl
    obtain ⟨hadvanced, -⟩ := (delayTimerReadAndSet x s.beginCycle).2.of_exec hu
    exact hresult hadvanced
  · rintro x rfl
    obtain ⟨hadvanced, -⟩ := (soundTimerSet x s.beginCycle).of_exec hu
    exact hresult hadvanced

theorem reachesEnd_halt (s : State) : ReachesEnd s s.beginCycle.halt :=
  ⟨rfl, fun _ => rfl, fun _ => rfl, fun h => by simp at h, fun h => by simp at h, fun _ => ⟨rfl, rfl⟩⟩

theorem reachesEnd_reportUnknown {s : State} {e : DecodeError} (hd : decode s.fetch = .error e) :
    ReachesEnd s (s.beginCycle.reportUnknown s.fetch) :=
  ⟨rfl, fun _ => rfl, fun _ => rfl, fun _ x hx => by simp [hd] at hx, fun _ x hx => by simp [hd] at hx,
    fun _ => ⟨rfl, rfl⟩⟩

/-- Every cycle comes to its end, which ticks or does not. -/
theorem step_reachesEnd {s t : State} (h : step s = .next t) : ∃ u, ReachesEnd s u ∧ t = u.endCycle := by
  obtain ⟨-, rfl⟩ | ⟨-, e, hd, rfl⟩ | ⟨-, i, u, hd, hu, rfl⟩ := step_cases h
  · exact ⟨_, reachesEnd_halt s, (State.endCycle_of_not_advanced (t := s.beginCycle.halt) (by simp)).symm⟩
  · exact ⟨_, reachesEnd_reportUnknown hd, rfl⟩
  · exact ⟨u, reachesEnd_of_exec hd hu, rfl⟩

/-- Settles O13: the tick finds the timers as before, or as `SDT` or `SST` has set them. -/
theorem stepTimersCountPerCompletedCycle : Obligations.StepTimersCountPerCompletedCycle := by
  intro s t h
  obtain ⟨u, hend, rfl⟩ := step_reachesEnd h
  rw [State.endCycle_result]
  refine ⟨fun hadvanced => ?_, fun hidle => ?_⟩
  · rw [State.endCycle_DT_toNat hadvanced, State.endCycle_ST_toNat hadvanced]
    exact ⟨fun hne => by rw [hend.delay hne], fun hne => by rw [hend.sound hne],
      fun x hx => by rw [hend.delaySet hadvanced x hx], fun x hx => by rw [hend.soundSet hadvanced x hx]⟩
  · rw [State.endCycle_of_not_advanced hidle]
    exact ⟨(hend.idle hidle).1, (hend.idle hidle).2, hend.beep⟩

/-- With no beep pending, a cycle beeps exactly if it completed and its tick finds the sound timer at 1. -/
theorem State.endCycle_beep_iff_advanced {u : State} (hbeep : u.beep = false) :
    u.endCycle.beep = true ↔ u.result = some .advanced ∧ u.ST = 1 := by
  by_cases hadvanced : u.result = some .advanced
  · rw [State.endCycle_beep_iff hadvanced hbeep, and_iff_right hadvanced]
  · simp [State.endCycle_of_not_advanced hadvanced, hbeep, hadvanced]

/-- Settles O14: the tick finds the sound timer as before, or as `SST` has set it. -/
theorem beepExactlyOnOneToZero : Obligations.BeepExactlyOnOneToZero := by
  intro s t h
  obtain ⟨u, hend, rfl⟩ := step_reachesEnd h
  rw [State.endCycle_result, State.endCycle_beep_iff_advanced hend.beep]
  refine ⟨fun hne => by rw [hend.sound hne], fun x hx => and_congr_right fun hadvanced => ?_⟩
  rw [hend.soundSet hadvanced x hx]

end Sys2Proof.Machine
end

section
/-! PROOFS. Runs of cycles that change nothing: O17 and O19 (spec/60_exceptions.md section 1,
spec/45_keys_timers.md R162). -/

namespace Sys2Proof.Machine

/-- If every cycle from a `P` state ends in a `P` state, within a frame and with a report `Q`, then any number
of cycles does. -/
theorem run_of_stable {P Q : State → Prop} {parts : List Part}
    (hstep : ∀ s, P s → ∃ t, step s = .next t ∧ P t ∧ KeepsAllBut parts s t ∧ Q t) (n : Nat) (s : State)
    (hs : P s) : ∃ t, Sys2Proof.core.run (n + 1) s = .next t ∧ KeepsAllBut parts s t ∧ Q t := by
  obtain ⟨t, hnext, ht, hframe, hQ⟩ := hstep s hs
  induction n generalizing s t with
  | zero => exact ⟨t, run_succ hnext 0, hframe, hQ⟩
  | succ n ih =>
    obtain ⟨u, hnext', hu, hframe', hQ'⟩ := hstep t ht
    obtain ⟨v, hrun, hframev, hQv⟩ := ih t ht u hnext' hu hframe' hQ'
    exact ⟨v, (run_succ hnext _).trans hrun, (hframe.trans hframev).mono (by simp), hQv⟩

/-- What a cycle that stands still reports: its result, and no event. -/
def Reports (r : CycleResult) (t : State) : Prop := t.result = some r ∧ t.beep = false ∧ t.unknown = none

/-- Settles O17: a halted cycle leaves the latch set. -/
theorem faultedCoreStaysHalted : Obligations.FaultedCoreStaysHalted := by
  refine run_of_stable (P := fun s => s.fault = true) (Q := Reports .halted) fun s hfault => ?_
  exact ⟨_, step_of_fault hfault, hfault,
    (s.keepsAllBut_beginCycle.trans (keepsAllBut_result _ _)).mono (by decide), rfl, rfl, rfl⟩

/-- A wait-for-key is at `pc`, no key is held and none is among the key states to come. -/
structure WaitsForKey (x : Reg) (s : State) : Prop where
  fault : s.fault = false
  word : decode s.fetch = .ok (.wkey x)
  key : s.key = 0
  keyIn : ∀ k ∈ s.keyIn, k = 0

/-- The keys that the next cycle samples (log entry 1). -/
theorem WaitsForKey.beginCycle_key {x : Reg} {s : State} (h : WaitsForKey x s) : s.beginCycle.key = 0 := by
  rw [State.beginCycle_key]
  cases hkeys : s.keyIn with
  | nil => exact h.key
  | cons k rest => exact h.keyIn k (hkeys ▸ List.mem_cons_self)

/-- Settles O19: a waiting cycle leaves the word, the latch and the absence of keys as they are. -/
theorem waitingRunChangesNothing : Obligations.WaitingRunChangesNothing := by
  intro n s x hfault hword hkey hkeyIn
  refine run_of_stable (P := WaitsForKey x) (Q := Reports .waiting) (fun s h => ?_) n s
    ⟨hfault, hword, hkey, hkeyIn⟩
  have hnone : highestKey s.beginCycle.key = none := (highestKey_eq_none_iff _).2 h.beginCycle_key
  have hstep := step_of_exec_next h.fault h.word (exec_wkey_of_highestKey_none x hnone)
  rw [State.endCycle_of_not_advanced (by simp)] at hstep
  exact ⟨_, hstep, ⟨h.fault, h.word, h.beginCycle_key, fun k hk => h.keyIn k (List.mem_of_mem_tail hk)⟩,
    (s.keepsAllBut_beginCycle.trans (keepsAllBut_result _ _)).mono (by decide), rfl, rfl, rfl⟩

end Sys2Proof.Machine
end
